-- ==== Sys2Proof/Word.lean ====
section
/-! DEFINITION. The word and byte types of the part and their plainest readings (spec/00_scope.md, Conventions;
spec/11_formats_and_signals.md). -/

namespace Sys2Proof

/-- A word of the bus window and of exchange memory: 16 bits (00_scope.md, "Words and offsets"). -/
abbrev Word := BitVec 16

/-- A byte of a serial frame (11_formats_and_signals.md 11.2). -/
abbrev Byte := BitVec 8

/-- A word address of the 16,384-word window: the pins A13 to A0 (11_formats_and_signals.md 11.7). -/
abbrev Addr := BitVec 14

end Sys2Proof
end

