-- ==== Sys2Proof/Config.lean ====
section
/-! DEFINITION. The constants the spec fixes for the part (sizes, region bounds, times) and the values it leaves free. -/

namespace Sys2Proof.Config

/-- Words of exchange memory: 12,288 (09, 9.1). -/
def xmWords : Nat := 12288

/-- INIT after power-on lasts 2 ms (R161), in µs. -/
def initPowerOn : Nat := 2000

/-- INIT after a warm reset, or after RESET returns high, lasts 100 µs (R162). -/
def initWarm : Nat := 100

/-- The external trip filter's stability time, 2 ms (R135), in µs. -/
def extripStable : Nat := 2000

/-- A command frame occupies the shift stage for 8 µs (R74). -/
def frameTime : Nat := 8

/-- An evaluation lasts 20 µs for each channel enabled at its beginning (R109). -/
def evalTimePerChannel : Nat := 20

/-- The cause window spans 24 TRU computations (R133). -/
def windowPeriods : Nat := 24

/-- The pre-trigger part of a record holds at most 96 snapshots (R149). -/
def prePlaces : Nat := 96

/-- The history ring has 256 places (R144). -/
def ringPlaces : Nat := 256

/-- A cause list holds at most 8 causes (R132). -/
def causeListMax : Nat := 8

/-- The FIFO of the vibration watch holds at most three frames (R103). -/
def fifoMax : Nat := 3

/-- A saturating counter stops here (00_scope.md, "Clamping and saturation"). -/
def counterMax : Nat := 65535

/-- FREE VALUE (assumption 6). How many stages of a record copy that a warm reset cuts had been written whole: R155 says that the
words already written stay, and nothing says how far the copy had come. The argument counts the warm resets (State.freeIndex). -/
opaque cutStage : Nat → Nat

/-- FREE VALUE (assumption 6). Whether a word of the stage that a warm reset cuts had been written: no rule orders the words
inside a stage. The first argument counts the warm resets, the second is the word's offset in exchange memory. -/
opaque cutWritten : Nat → Nat → Bool

end Sys2Proof.Config
end

