-- ==== Sys2Proof/Syntax.lean ====
section
/-! DEFINITION. The commands of the part: one constructor of Instr for each row of spec/opcode_table.json, with the
operands the row's event carries in from outside. An order's row has no operand of its own: its target and parameters
stand in the record that the walker reads from exchange memory at the take-up (R167). -/

namespace Sys2Proof

/-- A motor channel with its converter, link port and regulator (00_scope.md). -/
inductive Chan where
  | a
  | b
  deriving DecidableEq, Repr

/-- A serial receiver of the part: a converter link (R60) or the sensor port (R99). -/
inductive Receiver where
  | link (ch : Chan)
  | sensor
  deriving DecidableEq, Repr

/-- A byte as a receiver takes it: its eight data bits, and whether its stop bit was sampled low (R60). -/
structure RxByte where
  data : Byte
  framingError : Bool
  deriving DecidableEq, Repr

/-- The commands: the rows of spec/opcode_table.json in the table's order. -/
inductive Instr where
  /-- POWER_ON (R161). -/
  | powerOn
  /-- RESET_PIN (R162): the pin has been low for 1 µs. -/
  | resetPin
  /-- INIT_END (R161, R162). -/
  | initEnd
  /-- CHAIN_START_WRITE (R166): the word the host writes to CHAIN START. -/
  | chainStartWrite (offset : Word)
  /-- URGENT_STOP (R136, R165): the word the host writes to CONTROL. -/
  | urgentStop (control : Word)
  /-- ABANDON_CHAIN (R165, R171): the word the host writes to CONTROL. -/
  | abandonChain (control : Word)
  /-- DEVICE_RESET (R162, R165): the word the host writes to CONTROL. -/
  | deviceReset (control : Word)
  /-- NOTICE_WRITE (R183): the word the host writes to NOTICE. -/
  | noticeWrite (value : Word)
  /-- NOTICE_MASK_WRITE (R183): the word the host writes to NOTICE MASK. -/
  | noticeMaskWrite (value : Word)
  /-- REGISTER_WRITE_IGNORED (R163): a register's address and the word written. -/
  | registerWriteIgnored (address : Addr) (value : Word)
  /-- HOST_MEMORY_WRITE (R158): the address and the word written. -/
  | hostMemoryWrite (address : Addr) (value : Word)
  /-- SLOT_RELEASE (R146, R154): the slot and the word written to its state word. -/
  | slotRelease (slot : Fin 4) (value : Word)
  /-- ORDER_FORMAT_FAULT (R168): the take-up of a record that fails a format check. -/
  | orderFormatFault
  /-- SET_LOOP (R54): the take-up of such a record; so for the seventeen orders below. -/
  | setLoop
  /-- SET_LIMITS (R56). -/
  | setLimits
  /-- LOAD_ENVELOPE (R40). -/
  | loadEnvelope
  /-- SET_SHARE (R38). -/
  | setShare
  /-- SET_REFERENCE (R39). -/
  | setReference
  /-- SET_SENSOR (R123). -/
  | setSensor
  /-- SET_WATCH (R124). -/
  | setWatch
  /-- SET_POSITION (R97). -/
  | setPosition
  /-- SET_REPORT (R184). -/
  | setReport
  /-- RUN (R5). -/
  | run
  /-- STOP (R9). -/
  | stop
  /-- TRIP_RESET (R138). -/
  | tripReset
  /-- ISOLATE (R13). -/
  | isolate
  /-- RESTORE (R15). -/
  | restore
  /-- CLEAR_DERATE (R121). -/
  | clearDerate
  /-- TEST_TRIP (R137). -/
  | testTrip
  /-- INJECT_LEVEL (R125). -/
  | injectLevel
  /-- TRANSFER_COUNTS (R179). -/
  | transferCounts
  /-- TRU_PERIOD_EXPIRY (R19). -/
  | truPeriodExpiry
  /-- BREAK_AWAY_EXPIRY (R7). -/
  | breakAwayExpiry
  /-- STOP_HOLD_EXPIRY (R10). -/
  | stopHoldExpiry
  /-- SPEED_WINDOW_EXPIRY (R95). -/
  | speedWindowExpiry
  /-- QUADRATURE_CHANGE (R80): the channel whose filtered pair changed, and the new combination, numbered round the cycle
  in the forward sense (assumption 8). -/
  | quadratureChange (ch : Chan) (combination : Fin 4)
  /-- MARKER_ARRIVAL (R82, R190). -/
  | markerArrival
  /-- PUBLICATION_COMPLETION (R93). -/
  | publicationCompletion
  /-- LINK_FRAME_COMPLETION (R61, R65): the bytes of the frame, the first on the line first. -/
  | linkFrameCompletion (ch : Chan) (frame : List RxByte)
  /-- RECORD_COPY_COMPLETION (R150). -/
  | recordCopyCompletion
  /-- RECEIVER_SYNCHRONISED (R60, R99). -/
  | receiverSynchronised (receiver : Receiver)
  /-- LINK_BREAK_DETECTED (R62). -/
  | linkBreakDetected (ch : Chan)
  /-- BREAK_CLEARED (R62). -/
  | breakCleared (ch : Chan)
  /-- LINK_LOSS_EXPIRY (R68). -/
  | linkLossExpiry (ch : Chan)
  /-- TRANSMIT_COMPLETION (R74). -/
  | transmitCompletion (ch : Chan)
  /-- SAMPLE_FRAME_COMPLETION (R99, R100): the bytes of the frame. -/
  | sampleFrameCompletion (frame : List RxByte)
  /-- PORT_LOSS_EXPIRY (R101). -/
  | portLossExpiry
  /-- EVALUATION_END (R110). -/
  | evaluationEnd
  /-- EXTRIP_INPUT_CHANGE (R135): the new raw level; true is high, asserted (R190). -/
  | extripInputChange (level : Bool)
  /-- EXTRIP_FILTER_EXPIRY (R135). -/
  | extripFilterExpiry
  /-- REPORT_TIMER_EXPIRY (R175). -/
  | reportTimerExpiry
  /-- REPORT_COMPLETION (R176). -/
  | reportCompletion
  /-- RESET_PIN_RETURNS_HIGH (R162). -/
  | resetPinReturnsHigh
  deriving DecidableEq, Repr

end Sys2Proof
end

