-- ==== Sys2Proof/Decode.lean ====
section
/-! DEFINITION. The command that a word spells by the bits of spec/opcode_table.json. The table gives no row any bits
(every row's "fields" is empty and no row has "fixed"): the part has no instruction word, so no word spells a command. -/

namespace Sys2Proof

/-- No row of the table gives bits: no word spells a command. The words the part does decode (order headers, frames) are
read by Machine/Operands.lean. -/
def decodeTableWord (_nbits _w : Nat) : Option Instr := none

end Sys2Proof
end

