-- ==== Sys2Proof/Machine/State.lean ====
section
/-! DEFINITION. The state of the part, block by block (00, "The part at a glance"), as plain data; its reset values; and the
reasons a step could stop. INVENTORY.md lists every field with the rule that names it. -/

namespace Sys2Proof.Machine

/-- Why a step faults. The spec gives every command an effect in every state (an order that is not accepted is refused in its
result word, a trip moves the drive to TRIPPED), so no meaning raises a fault and the type has no constructor: safe. -/
inductive Fault where
  deriving DecidableEq, Repr

/-- Why a step is refused. -/
inductive Refusal where
  /-- Raised by an arm of exec whose command has no meaning yet; every command has one, so nothing raises it: safe. -/
  | notModelled (mnemonic : String)
  deriving DecidableEq, Repr

/-! ### Containers -/

/-- One value for each of the two channels. -/
structure Pair (α : Type) where
  a : α
  b : α
  deriving DecidableEq, Repr

/-- One value for each of the eight sensor channels 0 to 7. -/
structure Octet (α : Type) where
  s0 : α
  s1 : α
  s2 : α
  s3 : α
  s4 : α
  s5 : α
  s6 : α
  s7 : α
  deriving DecidableEq, Repr

/-- A counter that saturates at 65535 with its saturated mark (R77, R100). -/
structure Counter where
  count : Nat := 0
  sat   : Bool := false
  deriving DecidableEq, Repr

/-- Exchange memory: pairs of a word offset and the word there, offsets strictly rising, no zero word listed, an unlisted
word reading 0 (R161); the form is Memory.wf (Machine/Ops.lean). -/
abbrev Memory := List (Nat × Word)

/-! ### Names -/

/-- Whether the part is in INIT, and which INIT (R161, R162). -/
inductive StartUp where
  | ready
  | initPowerOn
  | initWarm
  deriving DecidableEq, Repr

/-- The drive state (R1). -/
inductive DriveState where
  | stopped
  | starting
  | running
  | stopping
  | tripped
  deriving DecidableEq, Repr

/-- The demand phase (R21). -/
inductive DemandPhase where
  | fresh
  | hold
  | zeroing
  deriving DecidableEq, Repr

/-- The receive state of a link or of the sensor port (R67, R101). -/
inductive RxState where
  | down
  | up
  | lost
  deriving DecidableEq, Repr

/-- The derate state with its reason (R118, R119). -/
inductive Derate where
  | none
  | alert
  | blind
  deriving DecidableEq, Repr

/-- The level state of a sensor channel; DISABLED when it is not enabled (06, 6.1). -/
inductive Level where
  | quiet
  | alert
  | danger
  | fault
  | disabled
  deriving DecidableEq, Repr

/-- The tracking state (R83). -/
inductive Tracking where
  | tracking
  | uncertain
  deriving DecidableEq, Repr

/-- Start kind or end kind of a revolution (R86, R89). -/
inductive BoundaryKind where
  | restart
  | inWindow
  | outOfWindow
  | missedMarker
  deriving DecidableEq, Repr

/-- The kinds of CONVERTER FAULT (07, 7.1). -/
inductive FaultKind where
  | fault
  | lineBreak
  | readyLost
  deriving DecidableEq, Repr

/-- A trip cause: the 24 pairs of code and detail of 07, 7.1. -/
inductive Cause where
  | urgentStop
  | externalTrip
  | overcurrent (ch : Chan)
  | linkLoss (ch : Chan)
  | converterFault (ch : Chan) (kind : FaultKind)
  | torqueExcess
  | pinionImbalance
  | stall
  | vibrationDanger (channel : Fin 8)
  | test
  deriving DecidableEq, Repr

/-- How the last walk ended (09, 9.4). -/
inductive WalkOutcome where
  | none
  | ended
  | refused
  | fault
  | abandoned
  | startInvalid
  deriving DecidableEq, Repr

/-! ### RC, run control (01) -/

/-- The six configuration-completeness flags (R4). -/
structure ConfigFlags where
  loopA    : Bool := false
  loopB    : Bool := false
  limitsA  : Bool := false
  limitsB  : Bool := false
  envelope : Bool := false
  position : Bool := false
  deriving DecidableEq, Repr

/-- Run control (R1, R2, R4, R7, R10, R13, R17); the defaults are R18's. -/
structure RunControl where
  drive        : DriveState := .stopped
  permit       : Bool := false
  flags        : ConfigFlags := {}
  isolated     : Pair Bool := ⟨false, false⟩
  /-- The break-away timer: stopped, or the time of its expiry (R7). -/
  breakAway    : Option Nat := none
  /-- The stop-hold timer: stopped, or the time of its expiry (R10). -/
  stopHold     : Option Nat := none
  /-- Break-away window in s. -/
  wba          : Nat := 15
  /-- Creep speed in speed counts. -/
  creep        : Nat := 41
  /-- Stop-hold time in ms. -/
  stopHoldTime : Nat := 2000
  deriving DecidableEq, Repr

/-! ### TRU, torque reference unit (02) -/

/-- The torque reference unit (02, 2.1), with the values SET LIMITS delivers to it (R41); the defaults are R42's and R59's. -/
structure TorqueUnit where
  timer        : Option Nat := none
  phase        : DemandPhase := .fresh
  unchanged    : Nat := 0
  lastSeq      : Option Nat := none
  tdem         : Int := 0
  tcmd         : Int := 0
  iref         : Pair Int := ⟨0, 0⟩
  lim          : Pair Int := ⟨0, 0⟩
  lneg         : Pair Int := ⟨0, 0⟩
  envelope     : List (Nat × Nat) := [(0, 4096), (4096, 4096)]
  share        : Nat := 2048
  imbThreshold : Nat := 820
  pim          : Nat := 50
  /-- TRU period in µs. -/
  period       : Nat := 1000
  runRamp      : Nat := 40
  stopRamp     : Nat := 20
  sd           : Nat := 20
  hs           : Nat := 200
  lba          : Pair Nat := ⟨9011, 9011⟩
  lnegCfg      : Pair Nat := ⟨2048, 2048⟩
  margin       : Nat := 410
  pte          : Nat := 5
  excessCount  : Nat := 0
  imbCount     : Nat := 0
  snapNumber   : Nat := 0
  staleEntries : Counter := {}
  deriving DecidableEq, Repr

/-! ### CRA, CRB, the current regulators (03) -/

/-- A current regulator (03, 3.1); the defaults are R59's. -/
structure Regulator where
  active   : Bool := false
  acc      : Int := 0
  kp       : Nat := 1024
  ki       : Nat := 256
  vlim     : Nat := 15565
  ioc      : Nat := 12288
  lastVcmd : Int := 0
  deriving DecidableEq, Repr

/-! ### CLA, CLB, the converter link ports (04) -/

/-- A command frame as it is handed to the transmitter: its mode and Vcmd (R73). -/
structure Command where
  run  : Bool
  vcmd : Int
  deriving DecidableEq, Repr

/-- The frame in the shift stage: its bytes, and the time of its completion (R74). -/
structure Sending where
  bytes : List Byte
  due   : Nat
  deriving DecidableEq, Repr

/-- A converter link port (04, 4.1); the defaults are R79's. -/
structure Link where
  rx          : RxState := .down
  synced      : Bool := false
  goodRun     : Nat := 0
  lastSeq     : Option Nat := none
  lossTimer   : Option Nat := none
  breakHeld   : Bool := false
  imeas       : Int := 0
  iavail      : Nat := 0
  ready       : Bool := false
  fault       : Bool := false
  sending     : Option Sending := none
  holding     : Option Command := none
  cmdSeq      : Nat := 0
  checkErrors : Counter := {}
  missed      : Counter := {}
  duplicates  : Counter := {}
  deriving DecidableEq, Repr

/-! ### PT, the position tracker (05) -/

/-- A working entry (R86). -/
structure WorkEntry where
  count     : Nat := 0
  tmax      : Option Int := none
  tmin      : Option Int := none
  sum       : Int := 0
  countFull : Bool := false
  vpeakA    : Nat := 0
  vpeakB    : Nat := 0
  deriving DecidableEq, Repr

/-- An ended revolution as it is handed to publication (R89): its table, whether it is valid (R90), its kinds, its duration
in µs and its net count. -/
structure Revolution where
  table     : List WorkEntry
  valid     : Bool
  startKind : BoundaryKind
  endKind   : BoundaryKind
  duration  : Nat
  netCount  : Int
  deriving DecidableEq, Repr

/-- A publication in flight: the revolution and the number it took (R93). -/
structure Publication where
  number : Nat
  rev    : Revolution
  deriving DecidableEq, Repr

/-- The position tracker (05, 5.1); the defaults are R98's. -/
structure PositionTracker where
  source    : Chan := .a
  pc        : Nat := 0
  sector    : Nat := 0
  forward   : Bool := true
  tracking  : Tracking := .uncertain
  wrapped   : Bool := false
  lastComb  : Option (Fin 4) := none
  nw        : Int := 0
  speed     : Int := 0
  timer     : Option Nat := none
  p         : Nat := 32768
  tol       : Nat := 512
  /-- Speed window in ms. -/
  ws        : Nat := 100
  kspd      : Nat := 256
  table     : List WorkEntry := List.replicate 32 {}
  taint     : Bool := true
  startKind : BoundaryKind := .restart
  startTime : Nat := 0
  netCount  : Int := 0
  revNumber : Nat := 0
  inFlight  : Option Publication := none
  waiting   : Option Revolution := none
  deriving DecidableEq, Repr

/-! ### VW, the vibration watch (06) -/

/-- An accepted sample frame: its bias-fault flags and its eight samples (R186). -/
structure SampleFrame where
  bias    : Byte
  samples : Octet Int
  deriving DecidableEq, Repr

/-- An injection (R125). -/
structure Injection where
  value : Nat
  count : Nat
  deriving DecidableEq, Repr

/-- A sensor channel (06, 6.1); the defaults are R127's. -/
structure SensorChannel where
  level       : Level := .disabled
  group       : Chan := .a
  tripEnable  : Bool := false
  alertLevel  : Nat := 2048
  dangerLevel : Nat := 4096
  hysteresis  : Nat := 256
  off         : Int := 0
  sumSq       : Nat := 0
  peak        : Nat := 0
  count       : Nat := 0
  gapped      : Bool := false
  faultSeen   : Bool := false
  lastRaw     : Option Int := none
  stuck       : Nat := 0
  up          : Nat := 0
  dn          : Nat := 0
  low         : Nat := 0
  below       : Nat := 0
  lastRms     : Nat := 0
  lastPeak    : Nat := 0
  injection   : Option Injection := none
  deriving DecidableEq, Repr

/-- A block latched for an evaluation (R109); dropped is set when its channel is disabled meanwhile (R110, R123). -/
structure Latched where
  channel   : Fin 8
  n         : Nat
  sumSq     : Nat
  peak      : Nat
  gapped    : Bool
  faultSeen : Bool
  dropped   : Bool := false
  deriving DecidableEq, Repr

/-- An evaluation in flight (R109): when it ends and the blocks it judges. -/
structure Evaluation where
  due     : Nat
  latched : List Latched
  deriving DecidableEq, Repr

/-- The vibration watch (06, 6.1); the defaults are R127's. -/
structure VibrationWatch where
  rx          : RxState := .down
  synced      : Bool := false
  goodRun     : Nat := 0
  lastSeq     : Option Nat := none
  lossTimer   : Option Nat := none
  checkErrors : Counter := {}
  missed      : Counter := {}
  gaps        : Counter := {}
  fifo        : List SampleFrame := []
  /-- EVALUATING when there is one, COLLECTING otherwise (R103). -/
  evaluation  : Option Evaluation := none
  channels    : Octet SensorChannel :=
    ⟨{}, {}, {}, {}, { group := .b }, { group := .b }, { group := .b }, { group := .b }⟩
  derate      : Derate := .none
  alertTime   : Nat := 0
  quietTime   : Nat := 0
  n           : Nat := 1024
  pa          : Nat := 3
  pcl         : Nat := 5
  pd          : Nat := 2
  ld          : Nat := 150
  lr          : Nat := 750
  d           : Nat := 3072
  k           : Nat := 256
  /-- Nominal interval in µs. -/
  ts          : Nat := 400
  deriving DecidableEq, Repr

/-! ### TU, the trip unit (07) -/

/-- The trip unit (07, 7.2); the defaults are R142's. extRaw is the raw level of the EXTRIP pin (R135, R190). -/
structure TripUnit where
  latched     : List Cause := []
  firstOut    : Option Cause := none
  /-- CLOSED, or OPEN with its period count (R133). -/
  window      : Option Nat := none
  causeList   : List Cause := []
  openEntry   : Option (Fin 32) := none
  nextIndex   : Fin 32 := 0
  tripCount   : Nat := 0
  extRaw      : Bool := false
  extFiltered : Bool := false
  extTimer    : Option Nat := none
  deriving DecidableEq, Repr

/-! ### RCU, record capture (08) -/

/-- A snapshot (R145). DESIGN CHOICE (assumptions 23 and 25): R81 puts Pc into every snapshot, and R26 LnegA and LnegB, while R145
and 11.5 give none of them a place among the 16 words; the snapshot holds them inside the part, and its words leave them out
(Snapshot.words). -/
structure Snapshot where
  number    : Nat
  drive     : DriveState
  phase     : DemandPhase
  derate    : Derate
  isolated  : Pair Bool
  tdem      : Int
  tcmd      : Int
  lim       : Pair Int
  /-- The holdback limits LnegA and LnegB (R26; assumption 25). -/
  lneg      : Pair Int
  iref      : Pair Int
  imeas     : Pair Int
  vcmd      : Pair Int
  speed     : Int
  /-- The position count (R81; assumption 23). -/
  pc        : Nat
  sector    : Nat
  tracking  : Tracking
  worstRms  : Nat
  levels    : Octet Level
  deriving DecidableEq, Repr

/-- The copy in flight (R149, R150): the words 1 to 127 of the slot and the pre-trigger snapshots, as they stood at the
trip. -/
structure CopyJob where
  header : List Word
  pre    : List Snapshot
  deriving DecidableEq, Repr

/-- Record capture (08, 8.1); the defaults are R156's. A ring entry is a place 0-255 with the snapshot in it. -/
structure RecordCapture where
  ring        : List (Nat × Snapshot) := []
  fillCount   : Nat := 0
  /-- NONE, or FILLING with the slot. -/
  capture     : Option (Fin 4) := none
  copy        : Option CopyJob := none
  preCount    : Nat := 0
  postCount   : Nat := 0
  lastHandoff : Nat := 0
  deriving DecidableEq, Repr

/-! ### RN, the report and notice unit (10) -/

/-- One value for each of the ten counters of the counts section, in the order of 0x0042 to 0x004B (11.5). -/
structure Counts where
  aCheck  : Counter := {}
  aMissed : Counter := {}
  aDup    : Counter := {}
  bCheck  : Counter := {}
  bMissed : Counter := {}
  bDup    : Counter := {}
  pCheck  : Counter := {}
  pMissed : Counter := {}
  pGaps   : Counter := {}
  stale   : Counter := {}
  deriving DecidableEq, Repr

/-- The report and notice unit (10, 10.1); the defaults are R185's. -/
structure ReportUnit where
  timer          : Option Nat := none
  /-- Report interval in ms. -/
  interval       : Nat := 1000
  reportNumber   : Nat := 0
  /-- The report being written: its 240 words, 0x0010 to 0x00FF. -/
  inFlight       : Option (List Word) := none
  /-- The report waiting: the values taken at its request, the words 0x0011 to 0x003F. -/
  waiting        : Option (List Word) := none
  manual         : Bool := false
  transferred    : Counts := {}
  transferNumber : Nat := 0
  taken          : Bool := true
  notice         : BitVec 10 := 0
  mask           : BitVec 10 := 0
  derateAny      : Bool := false
  levelAny       : Bool := false
  deriving DecidableEq, Repr

/-! ### CW, the chain walker (09) -/

/-- The chain walker (09, 9.4); the defaults are R173's. -/
structure Walker where
  walking      : Bool := false
  nextOffset   : Nat := 0x0400
  orderIndex   : Nat := 0
  outcome      : WalkOutcome := .none
  startRefused : Bool := false
  lastStart    : Nat := 0
  deriving DecidableEq, Repr

/-! ### The part -/

/-- The state of the part. -/
structure State where
  /-- The commands that wait, first in, first out: the model's own. -/
  pending   : List Instr := []
  /-- The internal time base in µs (assumption 3). -/
  now       : Nat := 0
  startUp   : StartUp := .initPowerOn
  /-- When INIT is to end; none outside INIT and while the RESET pin holds it (R162). -/
  initEnd   : Option Nat := some Config.initPowerOn
  /-- The RESET pin is held low (R162). -/
  resetLow  : Bool := false
  /-- The model's own counter of free values (assumption 6). -/
  freeIndex : Nat := 0
  xm        : Memory := []
  rc        : RunControl := {}
  tru       : TorqueUnit := {}
  reg       : Pair Regulator := ⟨{}, {}⟩
  link      : Pair Link := ⟨{}, {}⟩
  /-- Tloss in µs, shared by both ports (R78). -/
  tloss     : Nat := 1000
  pt        : PositionTracker := {}
  vw        : VibrationWatch := {}
  tu        : TripUnit := {}
  rcu       : RecordCapture := {}
  rn        : ReportUnit := {}
  cw        : Walker := {}
  deriving DecidableEq, Repr

/-- The part right after power has been applied (R161; assumption 1): INIT, exchange memory zero, every block at its reset
values (R18, R42, R59, R79, R98, R127, R142, R156, R173, R185). -/
def State.reset : State := {}

end Sys2Proof.Machine
end

