-- ==== Sys2Proof/WellFormed.lean ====
section
/-! DEFINITION. Which terms of Instr are commands of the part: the operand of a row is one that the row's event can carry.
The meanings are total all the same: a bus write named by the wrong row acts as the bus write it is
(Machine/Bus.lean, busWrite), so that no term of Instr is refused. -/

namespace Sys2Proof

/-- CONTROL bit 0, URGENT STOP (11.6). -/
def controlUrgent (w : Word) : Bool := w.getLsbD 0

/-- CONTROL bit 1, ABANDON CHAIN (11.6). -/
def controlAbandon (w : Word) : Bool := w.getLsbD 1

/-- CONTROL bit 2, DEVICE RESET (11.6). -/
def controlReset (w : Word) : Bool := w.getLsbD 2

/-- The offset of slot n's state word (R145's chapter, 8.1; 11.5). -/
def slotStateOffset (n : Fin 4) : Nat := 0x1000 + n.val * 0x800

/-- Whether an address is one of the four slot state words (R146). -/
def isSlotStateWord (a : Nat) : Bool := a == 0x1000 || a == 0x1800 || a == 0x2000 || a == 0x2800

/-- Whether an address is one of the six registers, 0x3FF8 to 0x3FFD (9.3). -/
def isRegister (a : Nat) : Bool := decide (0x3FF8 ≤ a) && decide (a ≤ 0x3FFD)

/-- Well-formed commands. -/
def Instr.wf : Instr → Bool
  | .urgentStop w => controlUrgent w && !controlReset w
  | .abandonChain w => controlAbandon w && !controlUrgent w && !controlReset w
  | .deviceReset w => controlReset w
  | .registerWriteIgnored a w =>
      a == 0x3FF9#14 || a == 0x3FFD#14 ||
        (a == 0x3FFC#14 && !controlUrgent w && !controlAbandon w && !controlReset w)
  | .hostMemoryWrite a _ => !isRegister a.toNat && !isSlotStateWord a.toNat
  | .linkFrameCompletion _ f => !f.isEmpty
  | .sampleFrameCompletion f => !f.isEmpty
  | .powerOn | .resetPin | .initEnd | .chainStartWrite _ | .noticeWrite _ | .noticeMaskWrite _
  | .slotRelease _ _ | .orderFormatFault | .setLoop | .setLimits | .loadEnvelope | .setShare
  | .setReference | .setSensor | .setWatch | .setPosition | .setReport | .run | .stop | .tripReset
  | .isolate | .restore | .clearDerate | .testTrip | .injectLevel | .transferCounts
  | .truPeriodExpiry | .breakAwayExpiry | .stopHoldExpiry | .speedWindowExpiry
  | .quadratureChange _ _ | .markerArrival | .publicationCompletion | .recordCopyCompletion
  | .receiverSynchronised _ | .linkBreakDetected _ | .breakCleared _ | .linkLossExpiry _
  | .transmitCompletion _ | .portLossExpiry | .evaluationEnd | .extripInputChange _
  | .extripFilterExpiry | .reportTimerExpiry | .reportCompletion | .resetPinReturnsHigh => true

end Sys2Proof
end

