-- ==== Sys2Proof/Machine/Ops.lean ====
section
/-! DEFINITION. The named operations every block's meaning is written over: containers, clamps and counters, exchange memory,
the time base, and the codes of 11.1. -/

namespace Sys2Proof.Machine

/-! ### Containers -/

/-- The other channel of the pair. -/
def otherChan : Chan → Chan
  | .a => .b
  | .b => .a

/-- The channel's number in causes and refusals: 0 for A, 1 for B (07, 7.1). -/
def chanIndex : Chan → Nat
  | .a => 0
  | .b => 1

def Pair.get {α : Type} (p : Pair α) : Chan → α
  | .a => p.a
  | .b => p.b

def Pair.set {α : Type} (p : Pair α) (ch : Chan) (v : α) : Pair α :=
  match ch with
  | .a => { p with a := v }
  | .b => { p with b := v }

def Pair.modify {α : Type} (p : Pair α) (ch : Chan) (f : α → α) : Pair α := p.set ch (f (p.get ch))

def Pair.map {α β : Type} (p : Pair α) (f : α → β) : Pair β := ⟨f p.a, f p.b⟩

def Pair.build {α : Type} (f : Chan → α) : Pair α := ⟨f .a, f .b⟩

def Octet.get {α : Type} (o : Octet α) : Fin 8 → α
  | 0 => o.s0
  | 1 => o.s1
  | 2 => o.s2
  | 3 => o.s3
  | 4 => o.s4
  | 5 => o.s5
  | 6 => o.s6
  | 7 => o.s7

def Octet.build {α : Type} (f : Fin 8 → α) : Octet α := ⟨f 0, f 1, f 2, f 3, f 4, f 5, f 6, f 7⟩

def Octet.set {α : Type} (o : Octet α) (i : Fin 8) (v : α) : Octet α :=
  Octet.build fun j => if j = i then v else o.get j

def Octet.map {α β : Type} (o : Octet α) (f : α → β) : Octet β := Octet.build fun i => f (o.get i)

def Octet.toList {α : Type} (o : Octet α) : List α := [o.s0, o.s1, o.s2, o.s3, o.s4, o.s5, o.s6, o.s7]

/-- The eight sensor channel numbers in channel order. -/
def sensorNumbers : List (Fin 8) := [0, 1, 2, 3, 4, 5, 6, 7]

/-- Replace element i of a list by f of it; a list shorter than i + 1 is unchanged. -/
def modifyAt {α : Type} (f : α → α) : Nat → List α → List α
  | _, [] => []
  | 0, x :: xs => f x :: xs
  | i + 1, x :: xs => x :: modifyAt f i xs

/-! ### Clamps and counters (00, "Clamping and saturation") -/

/-- Clamp(x, lo, hi). -/
def clamp (x lo hi : Int) : Int := if x < lo then lo else if hi < x then hi else x

/-- The ranges of 00: both ends included. -/
def inRange (x lo hi : Nat) : Bool := decide (lo ≤ x) && decide (x ≤ hi)

/-- Increase by 1, stopping at 65535. -/
def satInc (n : Nat) : Nat := min (n + 1) Config.counterMax

/-- Add k to a saturating counter; reaching 65535 sets the mark (R77, R178; assumption 12). -/
def Counter.add (c : Counter) (k : Nat) : Counter :=
  { count := min (c.count + k) Config.counterMax
    sat := c.sat || decide (Config.counterMax ≤ c.count + k) }

/-- Count one event. -/
def Counter.inc (c : Counter) : Counter := c.add 1

/-- The position, counted from 1, of the first check that fails (the details of R38, R39, R54, R56, R97, R123, R124, R184). -/
def firstBad : List Bool → Option Nat
  | [] => none
  | true :: rest => (firstBad rest).map (· + 1)
  | false :: _ => some 1

/-- floor(sqrt n), bit by bit from bit b - 1 down: the largest r with r * r ≤ n, for n < 2 ^ (2 * b) (R111). -/
def isqrtFrom (n : Nat) : Nat → Nat → Nat
  | 0, r => r
  | b + 1, r => if (r + 2 ^ b) * (r + 2 ^ b) ≤ n then isqrtFrom n b (r + 2 ^ b) else isqrtFrom n b r

/-- floor(sqrt n) for n below 2 ^ 48. -/
def isqrt (n : Nat) : Nat := isqrtFrom n 24 0

/-- A value of 0 or more as a word. -/
def wordN (n : Nat) : Word := BitVec.ofNat 16 n

/-- A signed value as a word, in two's complement (R188). -/
def wordI (i : Int) : Word := BitVec.ofInt 16 i

/-- A mark as 0 or 1. -/
def bit (b : Bool) : Nat := if b then 1 else 0

/-- The two words of a 32-bit value, low word first (00, "Words and offsets"). -/
def words32 (n : Nat) : List Word := [wordN n, wordN (n / 65536)]

/-! ### Exchange memory (09) -/

/-- The value of a word: the listed one, 0 when it is not listed (R161). -/
def Memory.read : Memory → Nat → Word
  | [], _ => 0
  | (k, v) :: rest, a => if k = a then v else Memory.read rest a

/-- The cells of a run of words from offset a on: zero words and offsets outside exchange memory make none. -/
def cellsFrom (a : Nat) : List Word → List (Nat × Word)
  | [] => []
  | w :: ws => if w = 0 ∨ Config.xmWords ≤ a then cellsFrom (a + 1) ws else (a, w) :: cellsFrom (a + 1) ws

/-- Write a run of words from offset a on, keeping the canonical form. -/
def Memory.writeBlock (m : Memory) (a : Nat) (ws : List Word) : Memory :=
  m.filter (fun c => decide (c.1 < a)) ++ cellsFrom a ws ++ m.filter (fun c => decide (a + ws.length ≤ c.1))

/-- Write one word. -/
def Memory.write (m : Memory) (a : Nat) (w : Word) : Memory := m.writeBlock a [w]

/-- Write the words of a list of offsets and words, in order. -/
def Memory.writeAll (m : Memory) (cells : List (Nat × Word)) : Memory :=
  cells.foldl (fun acc c => acc.write c.1 c.2) m

/-- The canonical form: offsets strictly rising, inside exchange memory, and no word of 0 listed. -/
abbrev Memory.wf (m : Memory) : Prop :=
  m.Pairwise (fun x y => x.1 < y.1) ∧ ∀ c ∈ m, c.1 < Config.xmWords ∧ c.2 ≠ 0

/-- The words at offsets a, a + 1, ..., n of them. -/
def Memory.readBlock (m : Memory) (a : Nat) : Nat → List Word
  | 0 => []
  | n + 1 => m.read a :: Memory.readBlock m (a + 1) n

/-- A run of words as the cells an operation writes, in order. -/
def cellRun (a : Nat) : List Word → List (Nat × Word)
  | [] => []
  | w :: ws => (a, w) :: cellRun (a + 1) ws

/-! ### The time base (00, "Time") -/

/-- The time base stands at d at the earliest: the event now taken is the expiry of a timer due at d (assumption 4). -/
def State.reach (s : State) (d : Nat) : State := { s with now := max s.now d }

/-! ### Updates of one block -/

def State.modLink (s : State) (ch : Chan) (f : Link → Link) : State := { s with link := s.link.modify ch f }

def State.modReg (s : State) (ch : Chan) (f : Regulator → Regulator) : State := { s with reg := s.reg.modify ch f }

/-! ### Codes shared by the formats (11.1) -/

def DriveState.code : DriveState → Nat
  | .stopped => 1
  | .starting => 2
  | .running => 3
  | .stopping => 4
  | .tripped => 5

/-- STARTING, RUNNING or STOPPING: the states in which PERMIT is asserted (R2). -/
def DriveState.live : DriveState → Bool
  | .starting | .running | .stopping => true
  | .stopped | .tripped => false

def DemandPhase.code : DemandPhase → Nat
  | .fresh => 0
  | .hold => 1
  | .zeroing => 2

def Derate.code : Derate → Nat
  | .none => 0
  | .alert => 1
  | .blind => 2

def RxState.code : RxState → Nat
  | .down => 0
  | .up => 1
  | .lost => 2

def Level.code : Level → Nat
  | .quiet => 0
  | .alert => 1
  | .danger => 2
  | .fault => 3
  | .disabled => 4

def BoundaryKind.code : BoundaryKind → Nat
  | .restart => 0
  | .inWindow => 1
  | .outOfWindow => 2
  | .missedMarker => 3

def WalkOutcome.code : WalkOutcome → Nat
  | .none => 0
  | .ended => 1
  | .refused => 2
  | .fault => 3
  | .abandoned => 4
  | .startInvalid => 5

def FaultKind.code : FaultKind → Nat
  | .fault => 1
  | .lineBreak => 2
  | .readyLost => 3

/-- The code of a cause (07, 7.1). -/
def Cause.code : Cause → Nat
  | .urgentStop => 1
  | .externalTrip => 2
  | .overcurrent _ => 3
  | .linkLoss _ => 4
  | .converterFault _ _ => 5
  | .torqueExcess => 6
  | .pinionImbalance => 7
  | .stall => 8
  | .vibrationDanger _ => 9
  | .test => 10

/-- The detail of a cause (07, 7.1). -/
def Cause.detail : Cause → Nat
  | .overcurrent ch => chanIndex ch
  | .linkLoss ch => chanIndex ch
  | .converterFault ch kind => chanIndex ch * 16 + kind.code
  | .vibrationDanger n => n.val
  | .urgentStop | .externalTrip | .torqueExcess | .pinionImbalance | .stall | .test => 0

/-- An enabled sensor channel: one whose level state is not DISABLED (06, 6.1). -/
def SensorChannel.enabled (c : SensorChannel) : Bool := c.level != .disabled

/-- The magnitude of the latest speed (R23). -/
def PositionTracker.speedMag (p : PositionTracker) : Nat := p.speed.natAbs

/-- Trip latched: TU's latched set is not empty (R141). -/
def TripUnit.tripLatched (t : TripUnit) : Bool := !t.latched.isEmpty

/-- The largest last RMS among enabled channels not in FAULT, or 0 (R117). -/
def VibrationWatch.worstRms (v : VibrationWatch) : Nat :=
  v.channels.toList.foldl (fun m c => if c.enabled && c.level != .fault then max m c.lastRms else m) 0

/-- The quiet condition: the port is UP and every enabled channel is QUIET (R120). -/
def VibrationWatch.quietCondition (v : VibrationWatch) : Bool :=
  v.rx == .up && v.channels.toList.all (fun c => !c.enabled || c.level == .quiet)

end Sys2Proof.Machine
end

