-- ==== Sys2Proof/Machine/Operands.lean ====
section
/-! DEFINITION. Every operand form: the check of serial frames, the frames the part receives and sends (11.2, R186), and the
order record as the walker reads it (11.4, R187). -/

namespace Sys2Proof.Machine

/-! ### The check (R64) -/

/-- One bit of the check: the register moves one place toward its most significant end, and takes 0x1021 by exclusive-or
when the bit shifted out, exclusive-or the incoming bit, is 1 (R64). -/
def crcBit (crc : Word) (b : Bool) : Word :=
  if xor crc.msb b then (crc <<< 1) ^^^ 0x1021#16 else crc <<< 1

/-- One byte of the check, its bits most significant first (R64). -/
def crcByte (crc : Word) (b : Byte) : Word :=
  [b.getLsbD 7, b.getLsbD 6, b.getLsbD 5, b.getLsbD 4, b.getLsbD 3, b.getLsbD 2, b.getLsbD 1, b.getLsbD 0].foldl crcBit crc

/-- The check over some bytes, the register starting at 0xFFFF (R64). -/
def crc16 (bytes : List Byte) : Word := bytes.foldl crcByte 0xFFFF#16

/-! ### Received frames (R63, R65, R99, R100, R186) -/

/-- Byte i of a frame. -/
def byteAt (bytes : List Byte) (i : Nat) : Byte := bytes.getD i 0

/-- Two bytes as a value, the less significant byte first (11.2). -/
def leValue (bytes : List Byte) (i : Nat) : Nat := (byteAt bytes i).toNat + 256 * (byteAt bytes (i + 1)).toNat

/-- Two bytes as a signed value, the less significant byte first. -/
def leSigned (bytes : List Byte) (i : Nat) : Int := (wordN (leValue bytes i)).toInt

/-- Two bytes as a check, the more significant byte first (R186). -/
def beWord (bytes : List Byte) (i : Nat) : Word := wordN (256 * (byteAt bytes i).toNat + (byteAt bytes (i + 1)).toNat)

/-- Tests 1 and 2 of R65 and R100: exactly n bytes, none carrying a framing error, and the check over all but the last two
equal to the check field. Answers the bytes of a frame that passes. -/
def checkedFrame (n : Nat) (frame : List RxByte) : Option (List Byte) :=
  if frame.length = n ∧ frame.all (fun b => !b.framingError) then
    let bytes := frame.map (·.data)
    if crc16 (bytes.take (n - 2)) = beWord bytes (n - 2) then some bytes else none
  else none

/-- The fields of a measure frame (R63). -/
structure MeasureFrame where
  seq    : Nat
  ready  : Bool
  fault  : Bool
  imeas  : Int
  iavail : Nat
  deriving DecidableEq, Repr

/-- The fields of a measure frame's bytes (R63, R186): status bits 2 to 7 are ignored, Iavail is limited to 32767. -/
def decodeMeasure (bytes : List Byte) : MeasureFrame :=
  { seq := (byteAt bytes 0).toNat
    ready := (byteAt bytes 1).getLsbD 0
    fault := (byteAt bytes 1).getLsbD 1
    imeas := leSigned bytes 2
    iavail := min (leValue bytes 4) 32767 }

/-- The fields of a sample frame's bytes (R186): bytes 2 + 2n and 3 + 2n are channel n's sample. -/
def decodeSample (bytes : List Byte) : SampleFrame :=
  { bias := byteAt bytes 1
    samples := Octet.build fun i => leSigned bytes (2 + 2 * i.val) }

/-! ### Command frames (R73, R186) -/

/-- The low byte of a value. -/
def lowByte (w : Word) : Byte := w.extractLsb' 0 8

/-- The high byte of a value. -/
def highByte (w : Word) : Byte := w.extractLsb' 8 8

/-- The six bytes of a command frame that takes this command sequence: sequence, mode, Vcmd low byte first, check of those
four high byte first (R73, R186). -/
def Command.bytes (c : Command) (seq : Nat) : List Byte :=
  let v := wordI c.vcmd
  let body := [BitVec.ofNat 8 seq, if c.run then 1 else 0, lowByte v, highByte v]
  body ++ [highByte (crc16 body), lowByte (crc16 body)]

/-- A BLOCK frame carries Vcmd 0 (R73). -/
def blockCommand : Command := ⟨false, 0⟩

/-! ### Order records (R167, R187, 11.4) -/

/-- The eighteen order kinds (9.5). -/
inductive OrderKind where
  | setLoop
  | setLimits
  | loadEnvelope
  | setShare
  | setReference
  | setSensor
  | setWatch
  | setPosition
  | setReport
  | run
  | stop
  | tripReset
  | isolate
  | restore
  | clearDerate
  | testTrip
  | injectLevel
  | transferCounts
  deriving DecidableEq, Repr

/-- Header bits 4-0 of each kind (11.4). -/
def OrderKind.code : OrderKind → Nat
  | .setLoop => 1
  | .setLimits => 2
  | .loadEnvelope => 3
  | .setShare => 4
  | .setReference => 5
  | .setSensor => 6
  | .setWatch => 7
  | .setPosition => 8
  | .setReport => 9
  | .run => 10
  | .stop => 11
  | .tripReset => 12
  | .isolate => 13
  | .restore => 14
  | .clearDerate => 15
  | .testTrip => 16
  | .injectLevel => 17
  | .transferCounts => 18

/-- The record length L of each kind (9.5, 11.4). -/
def OrderKind.length : OrderKind → Nat
  | .setLoop => 5
  | .setLimits => 7
  | .loadEnvelope => 19
  | .setShare => 5
  | .setReference => 7
  | .setSensor => 8
  | .setWatch => 11
  | .setPosition => 9
  | .setReport => 7
  | .run => 2
  | .stop => 2
  | .tripReset => 2
  | .isolate => 2
  | .restore => 2
  | .clearDerate => 2
  | .testTrip => 2
  | .injectLevel => 4
  | .transferCounts => 2

/-- The kind a code stands for: 0 and 19-31 are not order kinds (11.4). -/
def OrderKind.ofCode : Nat → Option OrderKind
  | 1 => some .setLoop
  | 2 => some .setLimits
  | 3 => some .loadEnvelope
  | 4 => some .setShare
  | 5 => some .setReference
  | 6 => some .setSensor
  | 7 => some .setWatch
  | 8 => some .setPosition
  | 9 => some .setReport
  | 10 => some .run
  | 11 => some .stop
  | 12 => some .tripReset
  | 13 => some .isolate
  | 14 => some .restore
  | 15 => some .clearDerate
  | 16 => some .testTrip
  | 17 => some .injectLevel
  | 18 => some .transferCounts
  | _ => none

/-- The target of an order (R174, 11.4). -/
inductive Target where
  | sensor (n : Fin 8)
  | all
  | chan (ch : Chan)
  | pair
  | noTarget
  deriving DecidableEq, Repr

/-- Header bits 9-6: 0-7 a sensor channel, 8 ALL, 9 A, 10 B, 11 PAIR, 12-15 no target (11.4). -/
def Target.ofCode (c : Nat) : Target :=
  if h : c < 8 then .sensor ⟨c, h⟩
  else match c with
    | 8 => .all
    | 9 => .chan .a
    | 10 => .chan .b
    | 11 => .pair
    | _ => .noTarget

/-- The code of a target; 12 for one that names nothing. -/
def Target.code : Target → Nat
  | .sensor n => n.val
  | .all => 8
  | .chan .a => 9
  | .chan .b => 10
  | .pair => 11
  | .noTarget => 12

/-- The decoded fields of a header (R187): kind code, L, end mark, target. -/
structure Header where
  kind    : Nat
  length  : Nat
  endMark : Bool
  target  : Target
  deriving DecidableEq, Repr

/-- Decode a header: bits 4-0 the kind, 14-10 L, 15 the end mark, 9-6 the target, bit 5 ignored (R187). -/
def decodeHeader (w : Word) : Header :=
  { kind := w.toNat % 32
    length := w.toNat / 1024 % 32
    endMark := w.getLsbD 15
    target := Target.ofCode (w.toNat / 64 % 16) }

/-- The header word of an order, bit 5 clear (11.4). -/
def encodeHeader (h : Header) : Word :=
  wordN (bit h.endMark * 32768 + h.length * 1024 + h.target.code * 64 + h.kind)

/-- The target and the parameter words of an order, parameters read as unsigned values (R187). -/
structure Order where
  target : Target
  par    : List Nat
  deriving DecidableEq, Repr

/-- Parameter i, counted from 0. -/
def Order.p (o : Order) (i : Nat) : Nat := o.par.getD i 0

/-- What an owner gives back: a code and a detail (9.5, R169). -/
structure OrderResult where
  code   : Nat
  detail : Nat
  deriving DecidableEq, Repr

/-- DONE (9.5). -/
def resDone : OrderResult := ⟨1, 0⟩

/-- REFUSED_STATE (9.5). -/
def refusedState (d : Nat) : OrderResult := ⟨2, d⟩

/-- REFUSED_RANGE (9.5). -/
def refusedRange (d : Nat) : OrderResult := ⟨3, d⟩

/-- REFUSED_TABLE (9.5, R40). -/
def refusedTable (d : Nat) : OrderResult := ⟨4, d⟩

/-- REFUSED_CONFIG (9.5, R5). -/
def refusedConfig (d : Nat) : OrderResult := ⟨5, d⟩

/-- REFUSED_LINK (9.5, R5). -/
def refusedLink (d : Nat) : OrderResult := ⟨6, d⟩

/-- REFUSED_ACTIVE (9.5, R121, R138). -/
def refusedActive (d : Nat) : OrderResult := ⟨7, d⟩

/-- REFUSED_WINDOW (9.5, R138). -/
def refusedWindow (d : Nat) : OrderResult := ⟨8, d⟩

/-- FORMAT (9.5, R168). -/
def resFormat (d : Nat) : OrderResult := ⟨9, d⟩

/-- The result word: code in bits 15-8, detail in bits 7-0 (R187). -/
def OrderResult.word (r : OrderResult) : Word := wordN (r.code * 256 + r.detail)

/-- Whether an owner completed the order (DONE). -/
def OrderResult.accepted (r : OrderResult) : Bool := r.code == 1

end Sys2Proof.Machine
end

