-- ==== Sys2Proof/Machine/Flags.lean ====
section
/-! DEFINITION. The notices and the interrupt output (10, R181 to R183), the output pins INT and PERMIT (R190), and the registers as
a host read finds them (9.3, 11.6). -/

namespace Sys2Proof.Machine

/-! ### Notices (R181) -/

/-- The ten notices. -/
inductive Notice where
  | chain
  | trip
  | record
  | report
  | revolution
  | derate
  | level
  | stale
  | link
  | state
  deriving DecidableEq, Repr

/-- Bit numbers of the notices in NOTICE (R181). -/
def Notice.bitNumber : Notice → Nat
  | .chain => 0
  | .trip => 1
  | .record => 2
  | .report => 3
  | .revolution => 4
  | .derate => 5
  | .level => 6
  | .stale => 7
  | .link => 8
  | .state => 9

/-- The word of NOTICE with one notice set. -/
def Notice.mark (n : Notice) : BitVec 10 := 1#10 <<< n.bitNumber

/-- Raise a notice: it is set, and stays set if it is already (R181). -/
def State.notify (s : State) (n : Notice) : State :=
  { s with rn := { s.rn with notice := s.rn.notice ||| n.mark } }

/-- Raise a notice when a condition holds. -/
def State.notifyIf (s : State) (c : Bool) (n : Notice) : State := if c then s.notify n else s

/-- VW reports a change of derate with its kind: ENTRY-ONLY raises DERATE for entry changes only, ANY for every change
(R122, R182). -/
def State.notifyDerate (s : State) (entry : Bool) : State := s.notifyIf (entry || s.rn.derateAny) .derate

/-- VW reports a change of a level state with its kind (R117, R182). -/
def State.notifyLevel (s : State) (entry : Bool) : State := s.notifyIf (entry || s.rn.levelAny) .level

/-- The interrupt output is asserted while a notice is set whose mark is set, outside INIT (R183). -/
def State.interrupt (s : State) : Bool := s.startUp == .ready && s.rn.notice &&& s.rn.mask != 0

/-- The level of the INT pin, true for high: low while the interrupt is asserted, and high otherwise (R190). -/
def State.intPin (s : State) : Bool := !s.interrupt

/-- The level of the PERMIT pin, true for high: high exactly while run control asserts PERMIT (R2, R190). -/
def State.permitPin (s : State) : Bool := s.rc.permit

/-! ### Registers (R163, R164, 11.6) -/

/-- CHAIN STATUS (11.6). -/
def Walker.status (c : Walker) : Word :=
  wordN (bit c.walking + 2 * c.outcome.code + 16 * bit c.startRefused + 256 * c.orderIndex)

/-- STATE outside INIT (R164, 11.6). -/
def State.stateWord (s : State) : Word :=
  wordN (1 + 2 * s.rc.drive.code + 16 * bit s.tu.tripLatched + 32 * s.vw.derate.code + 128 * s.link.a.rx.code
    + 512 * s.link.b.rx.code + 2048 * s.vw.rx.code + 8192 * bit (s.pt.tracking == .uncertain))

/-- A host read of a word of the window: during INIT every register reads 0 (R161, R162), and in the INIT after power-on every word
of exchange memory as well (R161); CONTROL and unused words read 0 (R158, R165). Reads change nothing. -/
def State.hostRead (s : State) (address : Addr) : Word :=
  let a := address.toNat
  if a < Config.xmWords then if s.startUp = .initPowerOn then 0 else s.xm.read a
  else if s.startUp ≠ .ready then 0
  else if a = 0x3FF8 then wordN s.cw.lastStart
  else if a = 0x3FF9 then s.cw.status
  else if a = 0x3FFA then s.rn.notice.setWidth 16
  else if a = 0x3FFB then s.rn.mask.setWidth 16
  else if a = 0x3FFD then s.stateWord
  else 0

end Sys2Proof.Machine
end

