-- ==== Sys2Proof/Machine/Formats.lean ====
section
/-! DEFINITION. The blocks the part writes into exchange memory, word by word (11.5, R188): snapshots, chronicle entries, record
headers, sector tables with their summary, and reports. -/

namespace Sys2Proof.Machine

/-- n words of 0. -/
def zeroWords (n : Nat) : List Word := List.replicate n 0

/-- A signed 32-bit value as two words, low word first. -/
def words32I (i : Int) : List Word := words32 (i % 4294967296).toNat

/-- Bits 4-0 sector, bit 15 UNCERTAIN (11.5). -/
def sectorWord (sector : Nat) (t : Tracking) : Word := wordN (sector + 32768 * bit (t == .uncertain))

/-- Bits 1-0 link A, 3-2 link B, 5-4 sensor port (11.5). -/
def State.receiveWord (s : State) : Word := wordN (s.link.a.rx.code + 4 * s.link.b.rx.code + 16 * s.vw.rx.code)

/-! ### Snapshots (R145) -/

/-- The two-place code of a level state, a disabled channel shown as QUIET (R145). -/
def Level.twoPlace : Level → Nat
  | .disabled => 0
  | l => l.code

/-- Level states packed two bits a channel, channel n in bits 2n + 1 and 2n (11.5). -/
def packLevels : List Level → Nat
  | [] => 0
  | l :: ls => l.twoPlace + 4 * packLevels ls

/-- The 16 words of a snapshot, as R145 and 11.5 lay them out: Pc, LnegA and LnegB have no place among them (assumptions 23
and 25). -/
def Snapshot.words (x : Snapshot) : List Word :=
  [wordN x.number,
   wordN (x.drive.code + 16 * x.phase.code + 64 * x.derate.code + 256 * bit x.isolated.a + 512 * bit x.isolated.b),
   wordI x.tdem, wordI x.tcmd, wordI x.lim.a, wordI x.lim.b, wordI x.iref.a, wordI x.iref.b,
   wordI x.imeas.a, wordI x.imeas.b, wordI x.vcmd.a, wordI x.vcmd.b, wordI x.speed,
   sectorWord x.sector x.tracking, wordN x.worstRms, wordN (packLevels x.levels.toList)]

/-- The snapshot of the values as they stand, under TRU's latest number (R35, R145). -/
def State.snapshot (s : State) : Snapshot :=
  { number := s.tru.snapNumber
    drive := s.rc.drive
    phase := s.tru.phase
    derate := s.vw.derate
    isolated := s.rc.isolated
    tdem := s.tru.tdem
    tcmd := s.tru.tcmd
    lim := s.tru.lim
    lneg := s.tru.lneg
    iref := s.tru.iref
    imeas := s.link.map (·.imeas)
    vcmd := s.reg.map (·.lastVcmd)
    speed := s.pt.speed
    pc := s.pt.pc
    sector := s.pt.sector
    tracking := s.pt.tracking
    worstRms := s.vw.worstRms
    levels := s.vw.channels.map (·.level) }

/-! ### The chronicle (R130, R131) -/

/-- Entry i of the chronicle begins here (R130). -/
def chronicleOffset (i : Fin 32) : Nat := 0x0100 + 8 * i.val

/-- The eight words of a chronicle entry at the trip (R131). -/
def chronicleWords (tripNumber : Nat) (c : Cause) (slot : Option (Fin 4)) (snap : Nat) (prior : DriveState) : List Word :=
  words32 tripNumber ++
  [wordN c.code, wordN c.detail, 1, (match slot with | some n => wordN n.val | none => 0xFFFF#16), wordN snap,
   wordN (prior.code + 16384 * bit slot.isNone + 32768)]

/-- The order in which the words of an entry are written at the trip (R131): code, detail, cause count, slot, snapshot number, the
word of prior state and marks, and last the trip number, low word then high word. -/
def entryOrder : List Nat := [2, 3, 4, 5, 6, 7, 0, 1]

/-- Entry i is written in the order of R131: words 2 to 7, each run upward, and last words 0 and 1, the trip number. -/
def Memory.writeEntry (m : Memory) (i : Fin 32) (words : List Word) : Memory :=
  (m.writeBlock (chronicleOffset i + 2) (words.drop 2)).writeBlock (chronicleOffset i) (words.take 2)

/-! ### Record slots (R149 to R152) -/

/-- Words 16 to 31 of a slot: eight places of code and detail, 0 where unused (11.5). -/
def causeListWords (l : List Cause) : List Word :=
  let used := l.flatMap fun c => [wordN c.code, wordN c.detail]
  (used ++ zeroWords (16 - used.length)).take 16

/-- Words 1 to 127 of a slot at the trip (R149, 11.5). DESIGN CHOICE (assumption 27): R67, R83 and R101 have the header show the
receive states and the tracking state as they are when it is written; the model takes them at the trip, as R149 says. -/
def State.headerWords (s : State) (tripNumber : Nat) (c : Cause) (snap offset : Nat) (prior : DriveState)
    (preCount : Nat) : List Word :=
  words32 tripNumber ++
  [wordN c.code, wordN c.detail, wordN snap, wordN offset, wordN prior.code, wordI s.pt.speed,
   sectorWord s.pt.sector s.pt.tracking, wordN s.vw.derate.code, s.receiveWord,
   wordN (bit s.rc.isolated.a + 2 * bit s.rc.isolated.b), wordN preCount, 0, 1] ++
  causeListWords [c] ++
  s.vw.channels.toList.map (fun ch => wordN ch.level.code) ++
  s.vw.channels.toList.map (fun ch => wordN ch.lastRms) ++
  s.vw.channels.toList.map (fun ch => wordN ch.lastPeak) ++
  zeroWords 72

/-- Snapshot place p of slot n begins here (08, 8.1). -/
def placeOffset (n : Fin 4) (p : Nat) : Nat := slotStateOffset n + 0x80 + 16 * p

/-- The stages of writing snapshots into the places of slot n from place p on, one snapshot each (R150). -/
def placeStages (n : Fin 4) : Nat → List Snapshot → List (List (Nat × Word))
  | _, [] => []
  | p, x :: xs => cellRun (placeOffset n p) x.words :: placeStages n (p + 1) xs

/-- The stages of the copy into slot n: the header first, and then the pre-trigger snapshots, oldest first (R149, R150). -/
def CopyJob.stages (j : CopyJob) (n : Fin 4) : List (List (Nat × Word)) :=
  cellRun (slotStateOffset n + 1) j.header :: placeStages n 0 j.pre

/-- The cells the copy into slot n writes. -/
def CopyJob.cells (j : CopyJob) (n : Fin 4) : List (Nat × Word) := (j.stages n).flatten

/-! ### The sector table and its summary (R91, R92) -/

/-- A working value clamped to a signed word (R91). -/
def clampWord (i : Int) : Int := clamp i (-32768) 32767

/-- Published Tmax: the working value clamped, 0 when the count is 0 (R91). -/
def WorkEntry.pubTmax (e : WorkEntry) : Int := if e.count = 0 then 0 else clampWord (e.tmax.getD 0)

/-- Published Tmin (R91). -/
def WorkEntry.pubTmin (e : WorkEntry) : Int := if e.count = 0 then 0 else clampWord (e.tmin.getD 0)

/-- Published Tmean: floor(sum / count) clamped, 0 when the count is 0 (R91). -/
def WorkEntry.pubTmean (e : WorkEntry) : Int := if e.count = 0 then 0 else clampWord (e.sum / (e.count : Int))

/-- The eight words of a sector entry (R91, 11.5). -/
def sectorEntryWords (sector : Nat) (valid : Bool) (e : WorkEntry) : List Word :=
  [wordN sector, wordN e.count, wordI e.pubTmax, wordI e.pubTmin, wordI e.pubTmean, wordN e.vpeakA, wordN e.vpeakB,
   wordN (bit valid + 2 * bit (e.count == 0) + 4 * bit e.countFull)]

/-- The entries of a table from sector i on. -/
def tableWords (valid : Bool) : Nat → List WorkEntry → List Word
  | _, [] => []
  | i, e :: es => sectorEntryWords i valid e ++ tableWords valid (i + 1) es

/-- The greatest published Tmax over the sectors with count above 0, with the lowest sector carrying it (R92). -/
def maxSector : Nat → List WorkEntry → Option (Int × Nat)
  | _, [] => none
  | i, e :: es =>
    match maxSector (i + 1) es with
    | none => if e.count = 0 then none else some (e.pubTmax, i)
    | some (v, j) => if e.count ≠ 0 ∧ v ≤ e.pubTmax then some (e.pubTmax, i) else some (v, j)

/-- The least published Tmin over the sectors with count above 0, with the lowest sector carrying it (R92). -/
def minSector : Nat → List WorkEntry → Option (Int × Nat)
  | _, [] => none
  | i, e :: es =>
    match minSector (i + 1) es with
    | none => if e.count = 0 then none else some (e.pubTmin, i)
    | some (v, j) => if e.count ≠ 0 ∧ e.pubTmin ≤ v then some (e.pubTmin, i) else some (v, j)

/-- floor(total sum / total count) over all sectors, clamped; 0 when the total count is 0 (R92). -/
def meanTorque (table : List WorkEntry) : Int :=
  let total : Nat := (table.map (·.count)).sum
  if total = 0 then 0 else clampWord ((table.map (·.sum)).sum / (total : Int))

/-- Summary words 0x0301 to 0x030E (R92, 11.5). -/
def Revolution.summaryWords (r : Revolution) : List Word :=
  let hi := maxSector 0 r.table
  let lo := minSector 0 r.table
  let pulsation : Int := match hi, lo with
    | some (x, _), some (y, _) => x - y
    | _, _ => 0
  [wordN r.startKind.code, wordN r.endKind.code, wordN (min (r.duration / 1000) 65535)] ++ words32I r.netCount ++
  [wordI pulsation, (match hi with | some (_, i) => wordN i | none => 0xFFFF#16),
   (match lo with | some (_, i) => wordN i | none => 0xFFFF#16), wordI (meanTorque r.table), wordN (bit r.valid)] ++
  zeroWords 4

/-- The stages of a publication in the order R93 gives: 0x0300, then the 32 entries and 0x0301 to 0x030E, last 0x030F. -/
def Publication.stages (p : Publication) : List (List (Nat × Word)) :=
  [[(0x0300, wordN p.number)],
   cellRun 0x0200 (tableWords p.rev.valid 0 p.rev.table) ++ cellRun 0x0301 p.rev.summaryWords,
   [(0x030F, wordN p.number)]]

/-- The cells a publication writes. -/
def Publication.cells (p : Publication) : List (Nat × Word) := p.stages.flatten

/-! ### The report block (R176, R177) -/

/-- Bit c - 1 set while a cause of code c is latched (0x0018). -/
def latchedWord (latched : List Cause) : Word :=
  [1, 2, 3, 4, 5, 6, 7, 8, 9, 10].foldl
    (fun w c => if latched.any (fun x => x.code == c) then w ||| (1#16 <<< (c - 1)) else w) 0#16

/-- The values a report takes at its request: words 0x0011 to 0x003F (R177, 11.5; assumption 27). -/
def State.reportValues (s : State) : List Word :=
  [wordN (s.rc.drive.code + 16 * bit s.rc.isolated.a + 32 * bit s.rc.isolated.b + 256 * s.tru.phase.code),
   wordI s.tru.tdem, wordI s.tru.tcmd, wordI s.tru.lim.a, wordI s.tru.lim.b, wordI s.tru.lneg.a, wordI s.tru.lneg.b,
   latchedWord s.tu.latched,
   (match s.tu.firstOut with | some c => wordN c.code | none => 0),
   (match s.tu.firstOut with | some c => wordN c.detail | none => 0),
   wordN (bit s.tu.extFiltered)] ++ words32 s.tu.tripCount ++
  [wordN s.tu.nextIndex.val, wordI s.link.a.imeas, wordI s.link.b.imeas, wordN s.link.a.iavail, wordN s.link.b.iavail,
   s.receiveWord, wordI s.pt.speed, wordN s.pt.pc, sectorWord s.pt.sector s.pt.tracking, wordN s.vw.derate.code] ++
  s.vw.channels.toList.map (fun c => wordN c.level.code) ++
  s.vw.channels.toList.map (fun c => wordN c.lastRms) ++
  s.vw.channels.toList.map (fun c => wordN c.lastPeak)

/-- The ten counters in the order of 0x0042 to 0x004B (11.5). -/
def Counts.toList (c : Counts) : List Counter :=
  [c.aCheck, c.aMissed, c.aDup, c.bCheck, c.bMissed, c.bDup, c.pCheck, c.pMissed, c.pGaps, c.stale]

/-- Saturated marks: bit n for count n (0x004C). -/
def satMarks : List Counter → Nat
  | [] => 0
  | c :: cs => bit c.sat + 2 * satMarks cs

/-- The 240 words of a report: number, values, counts section, zeros, number (R176, 11.5). DESIGN CHOICE (assumption 26): R176 takes
the transferred counts when the writing begins and does not say when the counts mode is taken; the whole counts section is taken
then. -/
def reportWords (number : Nat) (values : List Word) (r : ReportUnit) : List Word :=
  [wordN number] ++ values ++ [wordN (bit r.manual), wordN r.transferNumber] ++
  r.transferred.toList.map (fun c => wordN c.count) ++ [wordN (satMarks r.transferred.toList)] ++
  zeroWords 178 ++ [wordN number]

/-- The stages of writing a report in the order R176 gives: 0x0010, then the other words, last 0x00FF. -/
def reportStages (ws : List Word) : List (List (Nat × Word)) :=
  let cells := cellRun 0x0010 ws
  [cells.take 1, (cells.drop 1).take 238, cells.drop 239]

/-! ### Operations in flight -/

/-- The operations that write exchange memory over a time: a publication (R93), a report (R176), a record copy (R149, R150). -/
inductive Operation where
  | publication
  | report
  | copy
  deriving DecidableEq, Repr

/-- The stages of the operations in flight, none of one that is not (R93, R149, R150, R176). -/
def State.stages (s : State) : Operation → List (List (Nat × Word))
  | .publication => match s.pt.inFlight with | some p => p.stages | none => []
  | .report => match s.rn.inFlight with | some ws => reportStages ws | none => []
  | .copy => match s.rcu.capture, s.rcu.copy with | some n, some j => j.stages n | _, _ => []

/-- The cells of the operations in flight. -/
def State.cellsInFlight (s : State) : List (Nat × Word) :=
  (s.stages .publication ++ s.stages .report ++ s.stages .copy).flatten

/-- How far the operations in flight have come: the number of stages that each has written whole, and, in the stage that follows
them, which words (assumption 5: the manual orders the stages and not the words inside one, and does not say how fast either is
written). -/
structure Progress where
  stage : Operation → Nat
  words : Nat → Bool

/-- The cells written of an operation's stages when k of them have been written whole, and of the next the words given. -/
def writtenStages (words : Nat → Bool) : List (List (Nat × Word)) → Nat → List (Nat × Word)
  | [], _ => []
  | g :: _, 0 => g.filter fun c => words c.1
  | g :: rest, k + 1 => g ++ writtenStages words rest k

/-- The cells that an operation has written. -/
def Progress.written (p : Progress) (o : Operation) (stages : List (List (Nat × Word))) : List (Nat × Word) :=
  writtenStages p.words stages (p.stage o)

/-- Exchange memory while the operations in flight have come so far: the words written are new, the others old (R93, R159,
R176). -/
def State.memoryAt (s : State) (p : Progress) : Memory :=
  ((s.xm.writeAll (p.written .publication (s.stages .publication))).writeAll (p.written .report (s.stages .report))).writeAll
    (p.written .copy (s.stages .copy))

/-- What a host read of a word finds while the operations in flight have come so far (R93, R159, R160, R176; assumption 5).
DESIGN CHOICE (assumption 24): a host that reads 0x0010 (or 0x0300), then the words it wants, then 0x00FF (or 0x030F), each read
at a later progress, may find equal numbers around words that are not all of one writing, since the words are written first to
last, as they are read; R93, R160 and R176 say that equal numbers mark one whole writing. The model keeps the order of writing,
and the claim with it only for reads at one progress. -/
def State.hostReadAt (s : State) (p : Progress) (address : Addr) : Word := State.hostRead { s with xm := s.memoryAt p } address

end Sys2Proof.Machine
end

