-- ==== Sys2Proof/Machine/Trips.lean ====
section
/-! DEFINITION. The path of a trip, shared by every source of a cause: the transmitter's hand-over (R73 to R76), the slot
choice and the copy (R147 to R149), the entry into TRIPPED (R11), and the latching of causes (R128 to R132). -/

namespace Sys2Proof.Machine

/-! ### The transmitter (R73 to R76) -/

/-- A frame starts to be shifted: it takes the command sequence, which advances, and its check (R73); it occupies the stage
for 8 µs (R74). -/
def Link.startFrame (l : Link) (c : Command) (now : Nat) : Link :=
  { l with sending := some ⟨c.bytes l.cmdSeq, now + Config.frameTime⟩, cmdSeq := (l.cmdSeq + 1) % 256 }

/-- A frame is handed to the transmitter: it starts at once when the stage is IDLE, and takes the holding slot otherwise,
replacing any frame there (R75). -/
def Link.handOver (l : Link) (c : Command) (now : Nat) : Link :=
  match l.sending with
  | none => l.startFrame c now
  | some _ => { l with holding := some c }

/-! ### Regulators (R45) -/

/-- The entry into BLOCKED: Acc and the last Vcmd become 0 (R45). -/
def Regulator.block (r : Regulator) : Regulator := { r with active := false, acc := 0, lastVcmd := 0 }

/-! ### Record capture (R147 to R150) -/

/-- The value of a slot's state word. -/
def State.slotWord (s : State) (n : Fin 4) : Word := s.xm.read (slotStateOffset n)

/-- A slot is free while its word reads EMPTY or RELEASED (R147). -/
def State.slotFree (s : State) (n : Fin 4) : Bool := s.slotWord n == 0 || s.slotWord n == 3

/-- The lowest-numbered free slot (R147), or none (R148). -/
def State.chooseSlot (s : State) : Option (Fin 4) := [0, 1, 2, 3].find? s.slotFree

/-- The slot choice: FILLING into the chosen state word, capture FILLING, both counts 0; nothing when no slot is free
(R147, R148). -/
def State.takeSlot (s : State) : State :=
  match s.chooseSlot with
  | none => s
  | some n =>
    { s with
      xm := s.xm.write (slotStateOffset n) 1
      rcu := { s.rcu with capture := some n, preCount := 0, postCount := 0, copy := none } }

/-- The snapshot in a ring place (R144). -/
def ringAt (ring : List (Nat × Snapshot)) (place : Nat) : Option Snapshot :=
  (ring.find? fun e => e.1 == place).map (·.2)

/-- count snapshots from a ring place upward, wrapping from place 255 to place 0 (R150). -/
def ringRun (ring : List (Nat × Snapshot)) (start : Nat) : Nat → List Snapshot
  | 0 => []
  | n + 1 => (ringAt ring (start % Config.ringPlaces)).toList ++ ringRun ring (start + 1) n

/-- The pre-trigger snapshots, oldest first: the preCount snapshots that end with the newest, whose number is snap (R150). -/
def preTrigger (ring : List (Nat × Snapshot)) (snap preCount : Nat) : List Snapshot :=
  ringRun ring (snap + 65536 - preCount) preCount

/-- The copy begins, once TU has numbered the trip: the header's values and the ring as they stand at the trip (R149, R150). -/
def State.beginCopy (s : State) (slot : Option (Fin 4)) (c : Cause) (prior : DriveState) : State :=
  match slot with
  | none => s
  | some _ =>
    let pre := min Config.prePlaces s.rcu.fillCount
    let snap := s.tru.snapNumber
    let header := s.headerWords s.tu.tripCount c snap (s.now - s.rcu.lastHandoff) prior pre
    { s with rcu := { s.rcu with preCount := pre, copy := some ⟨header, preTrigger s.rcu.ring snap pre⟩ } }

/-! ### The entry into TRIPPED (R11, R3) -/

/-- RC enters TRIPPED: PERMIT falls, both RC timers stop; TRU zeroes its command, references and watch counts (R31, R34); the
regulators block (R45); each link hands over a BLOCK frame (R76). -/
def State.enterTripped (s : State) : State :=
  { s with
    rc := { s.rc with drive := .tripped, permit := false, breakAway := none, stopHold := none }
    tru := { s.tru with tcmd := 0, iref := ⟨0, 0⟩, excessCount := 0, imbCount := 0 }
    reg := s.reg.map Regulator.block
    link := s.link.map fun l => l.handOver blockCommand s.now }

/-! ### Latching (R128 to R132) -/

/-- TU numbers the trip, opens the window and writes the chronicle entry, word by word in its order (R129 steps 1, 4, 5 and 6,
R131). -/
def State.latchFirst (s : State) (c : Cause) (slot : Option (Fin 4)) (prior : DriveState) : State :=
  let number := (s.tu.tripCount + 1) % 4294967296
  { s with
    tu := { s.tu with
      latched := [c]
      firstOut := some c
      tripCount := number
      window := some 0
      causeList := [c]
      openEntry := some s.tu.nextIndex
      nextIndex := s.tu.nextIndex + 1 }
    xm := s.xm.writeEntry s.tu.nextIndex (chronicleWords number c slot s.tru.snapNumber prior) }

/-- A first cause (R129): RC enters TRIPPED, RCU chooses a slot, TU latches and lists the cause, numbers the trip and writes
the entry, TRIP is raised, and the copy begins. -/
def State.firstCause (s : State) (c : Cause) : State :=
  let prior := s.rc.drive
  let slot := s.chooseSlot
  (((s.enterTripped.takeSlot).latchFirst c slot prior).notify .trip).beginCopy slot c prior

/-- A further cause (R132): it is latched unless it is already, and listed while the window is OPEN, the pair is not in the
list and the list holds fewer than 8. -/
def State.furtherCause (s : State) (c : Cause) : State :=
  let lists := s.tu.window.isSome && !s.tu.causeList.contains c && decide (s.tu.causeList.length < Config.causeListMax)
  { s with
    tu := { s.tu with
      latched := if s.tu.latched.contains c then s.tu.latched else s.tu.latched ++ [c]
      causeList := if lists then s.tu.causeList ++ [c] else s.tu.causeList } }

/-- TU takes the report of a cause (R128). -/
def State.report (s : State) (c : Cause) : State :=
  if s.rc.drive = .tripped then s.furtherCause c else s.firstCause c

/-- TU takes a report when a condition holds. -/
def State.reportIf (s : State) (b : Bool) (c : Cause) : State := if b then s.report c else s

end Sys2Proof.Machine
end

