-- ==== Sys2Proof/Machine/Resets.lean ====
section
/-! DEFINITION. Start-up and resets: POWER_ON, RESET_PIN, RESET_PIN_RETURNS_HIGH, INIT_END (R161, R162), and the warm reset
shared with DEVICE_RESET. -/

namespace Sys2Proof.Machine

/-- How far the operations in flight had come when a warm reset cuts them (R94, R155, R185; assumption 6): a publication and a report
have written their number into their first word and not into their last, so that the cut leaves the ends apart (R160); which words
between them, and how much of a record copy, is free. -/
def cutProgress (freeIndex : Nat) : Progress where
  stage := fun
    | .publication | .report => 1
    | .copy => Config.cutStage freeIndex
  words := Config.cutWritten freeIndex

/-- Exchange memory after a warm reset has cut the operations in flight: the words already written stay (R94, R155, R185). -/
def State.cutMemory (s : State) : Memory := s.memoryAt (cutProgress s.freeIndex)

/-- RCU writes EMPTY into the state word of the slot it was filling and into every other one that holds FILLING (R155). -/
def emptyFilling (capture : Option (Fin 4)) (m : Memory) : Memory :=
  [(0 : Fin 4), 1, 2, 3].foldl
    (fun acc n => if capture = some n ∨ acc.read (slotStateOffset n) = 1 then acc.write (slotStateOffset n) 0 else acc) m

/-- A warm reset begins (R162): operations are cut, FILLING slots become EMPTY, every block takes its reset values except that
TU keeps its next index and its trip count (R143), and exchange memory is kept. Nothing begins during INIT (R162). -/
def State.warmReset (s : State) (initEnd : Option Nat) : State :=
  if s.startUp ≠ .ready then s
  else
    { pending := s.pending
      now := s.now
      startUp := .initWarm
      initEnd := initEnd
      resetLow := s.resetLow
      freeIndex := s.freeIndex + 1
      xm := emptyFilling s.rcu.capture s.cutMemory
      pt := { startTime := s.now }
      tu := { nextIndex := s.tu.nextIndex, tripCount := s.tu.tripCount, extRaw := s.tu.extRaw } }

/-- Power is applied (R161): the state is State.reset, with the pins as they are outside (assumption 7) and the model's own
queue and counter of free values kept. -/
def State.powerOn (s : State) : State :=
  { State.reset with
    pending := s.pending
    resetLow := s.resetLow
    freeIndex := s.freeIndex
    tu := { extRaw := s.tu.extRaw } }

/-- INIT ends (R161, R162): READY, the TRU period, speed-window and report timers start (R19, R95, R175), the time of the last
hand-off is taken from here (R156), and the external filter takes the raw level as though it had just changed (R135). A RESET
pin held low holds the part in INIT (R162). -/
def State.endInit (s : State) : State :=
  if s.startUp = .ready ∨ s.resetLow then s
  else
    let t := s.reach (s.initEnd.getD 0)
    { t with
      startUp := .ready
      initEnd := none
      tru := { t.tru with timer := some (t.now + t.tru.period) }
      pt := { t.pt with timer := some (t.now + t.pt.ws * 1000) }
      rn := { t.rn with timer := some (t.now + t.rn.interval * 1000) }
      rcu := { t.rcu with lastHandoff := t.now }
      tu := { t.tu with extTimer := if t.tu.extRaw then some (t.now + Config.extripStable) else none } }

/-- The RESET pin has been low for 1 µs (R162): a warm reset begins, with an INIT that the pin holds; during INIT nothing
restarts, and the pin held low extends it. -/
def State.pinLow (s : State) : State :=
  if s.resetLow then s else State.warmReset { s with resetLow := true } none

/-- The RESET pin returns high (R162): the INIT it held lasts 100 µs from here. DESIGN CHOICE (assumption 29): so does a warm INIT
that the pin did not begin, or that had its end set, when the pin falls and returns within it; R162 says that it restarts nothing and
that a pin held low extends it. An INIT after power-on that has not yet reached its 2 ms is not extended (R161; assumption 10). -/
def State.pinHigh (s : State) : State :=
  if s.resetLow then
    match s.startUp with
    | .ready => { s with resetLow := false }
    | .initWarm => { s with resetLow := false, initEnd := some (s.now + Config.initWarm) }
    | .initPowerOn =>
      let due := s.initEnd.getD 0
      { s with resetLow := false, initEnd := some (if due ≤ s.now then s.now + Config.initWarm else due) }
  else s

/-- POWER_ON (R161). -/
def execPowerOn (s : State) : Host.Outcome State Fault Refusal := .next s.powerOn

/-- RESET_PIN (R162). -/
def execResetPin (s : State) : Host.Outcome State Fault Refusal := .next s.pinLow

/-- INIT_END (R161, R162). -/
def execInitEnd (s : State) : Host.Outcome State Fault Refusal := .next s.endInit

/-- RESET_PIN_RETURNS_HIGH (R162). -/
def execResetPinReturnsHigh (s : State) : Host.Outcome State Fault Refusal := .next s.pinHigh

end Sys2Proof.Machine
end

