-- ==== Sys2Proof/Machine/Bus.lean ====
section
/-! DEFINITION. Host writes (R158, R163, R165, R166, R183). Every write is decoded by its address (busWrite), so that a write
named by the wrong row acts as the write it is (assumption 14). -/

namespace Sys2Proof.Machine

/-- The walk in progress ends ABANDONED, with CHAIN; an IDLE walker is left as it is (R171). -/
def State.abandonWalk (s : State) : State :=
  if s.cw.walking then
    State.notify { s with cw := { s.cw with walking := false, outcome := .abandoned } } .chain
  else s

/-- A write to CHAIN START (R166); ignored during INIT (R161, R162). -/
def State.writeChainStart (s : State) (w : Word) : State :=
  if s.startUp ≠ .ready then s
  else if s.cw.walking then { s with cw := { s.cw with startRefused := true } }
  else if 0x0400 ≤ w.toNat ∧ w.toNat ≤ 0x0FFF then
    { s with cw :=
      { walking := true, nextOffset := w.toNat, orderIndex := 0, outcome := .none, startRefused := false,
        lastStart := w.toNat } }
  else
    State.notify { s with cw := { s.cw with outcome := .startInvalid, orderIndex := 0 } } .chain

/-- A write to CONTROL (R165): DEVICE RESET alone counts when it is set; URGENT STOP reports its cause (R136) and ends the
walk; ABANDON CHAIN ends the walk; without a mark nothing happens. Ignored during INIT. -/
def State.writeControl (s : State) (w : Word) : State :=
  if s.startUp ≠ .ready then s
  else if controlReset w then s.warmReset (some (s.now + Config.initWarm))
  else if controlUrgent w then (s.report .urgentStop).abandonWalk
  else if controlAbandon w then s.abandonWalk
  else s

/-- A write to NOTICE clears each notice whose bit is 1 (R183); ignored during INIT. -/
def State.writeNotice (s : State) (w : Word) : State :=
  if s.startUp ≠ .ready then s
  else { s with rn := { s.rn with notice := s.rn.notice &&& ~~~(w.setWidth 10) } }

/-- A write to NOTICE MASK stores the ten marks (R183); ignored during INIT. -/
def State.writeMask (s : State) (w : Word) : State :=
  if s.startUp ≠ .ready then s
  else { s with rn := { s.rn with mask := w.setWidth 10 } }

/-- The words the host may write freely: the demand block, the host area and the chain region (9.1, R158). -/
def hostWritable (a : Nat) : Bool :=
  decide (a ≤ 0x000F) || (decide (0x0310 ≤ a) && decide (a ≤ 0x0FFF))

/-- A host write to a word that is no register (R158): stored in the host's regions; RELEASED stored in a slot state word and
any other value ignored (R146); without effect elsewhere. Ignored throughout the INIT after power-on (R161), handled as outside
INIT throughout a warm reset's (R162). -/
def State.writeMemory (s : State) (a : Nat) (w : Word) : State :=
  if s.startUp = .initPowerOn then s
  else if hostWritable a || (isSlotStateWord a && w == 3) then { s with xm := s.xm.write a w }
  else s

/-- A host write of one word of the window (9.1, 9.3). -/
def State.busWrite (s : State) (address : Addr) (w : Word) : State :=
  if address = 0x3FF8#14 then s.writeChainStart w
  else if address = 0x3FFA#14 then s.writeNotice w
  else if address = 0x3FFB#14 then s.writeMask w
  else if address = 0x3FFC#14 then s.writeControl w
  else s.writeMemory address.toNat w

/-- CHAIN_START_WRITE (R166). -/
def execChainStartWrite (offset : Word) (s : State) : Host.Outcome State Fault Refusal := .next (s.writeChainStart offset)

/-- URGENT_STOP (R136, R165). -/
def execUrgentStop (control : Word) (s : State) : Host.Outcome State Fault Refusal := .next (s.writeControl control)

/-- ABANDON_CHAIN (R165, R171). -/
def execAbandonChain (control : Word) (s : State) : Host.Outcome State Fault Refusal := .next (s.writeControl control)

/-- DEVICE_RESET (R162, R165). -/
def execDeviceReset (control : Word) (s : State) : Host.Outcome State Fault Refusal := .next (s.writeControl control)

/-- NOTICE_WRITE (R183). -/
def execNoticeWrite (value : Word) (s : State) : Host.Outcome State Fault Refusal := .next (s.writeNotice value)

/-- NOTICE_MASK_WRITE (R183). -/
def execNoticeMaskWrite (value : Word) (s : State) : Host.Outcome State Fault Refusal := .next (s.writeMask value)

/-- REGISTER_WRITE_IGNORED (R163): CHAIN STATUS and STATE take no write. -/
def execRegisterWriteIgnored (address : Addr) (value : Word) (s : State) : Host.Outcome State Fault Refusal :=
  .next (s.busWrite address value)

/-- HOST_MEMORY_WRITE (R158). -/
def execHostMemoryWrite (address : Addr) (value : Word) (s : State) : Host.Outcome State Fault Refusal :=
  .next (s.busWrite address value)

/-- SLOT_RELEASE (R146, R154). -/
def execSlotRelease (slot : Fin 4) (value : Word) (s : State) : Host.Outcome State Fault Refusal :=
  .next (s.writeMemory (slotStateOffset slot) value)

end Sys2Proof.Machine
end

