-- ==== Sys2Proof/Machine/Chain.lean ====
section
/-! DEFINITION. The chain walker's take-up (R167 to R170), and ORDER_FORMAT_FAULT. -/

namespace Sys2Proof.Machine

/-- The header at the next offset (R167). -/
def State.recordHeader (s : State) : Header := decodeHeader (s.xm.read s.cw.nextOffset)

/-- The format checks of R168 on the record at the next offset, in order: the FORMAT detail of the first that fails. -/
def State.formatFault (s : State) : Option Nat :=
  let off := s.cw.nextOffset
  if 64 < s.cw.orderIndex + 1 then some 4
  else if 0x0FFF < off then some 3
  else match OrderKind.ofCode s.recordHeader.kind with
    | none => some 1
    | some k =>
      if s.recordHeader.length ≠ k.length then some 2
      else if 0x0FFF < off + s.recordHeader.length - 1 then some 3
      else none

/-- The kind of the record to be taken up next: none while the walker is IDLE and for a record with a format fault. -/
def State.recordKind (s : State) : Option OrderKind :=
  if s.cw.walking ∧ s.formatFault = none then OrderKind.ofCode s.recordHeader.kind else none

/-- The target and parameters of the record, read as one access (R159, R167, R187). -/
def State.recordOrder (s : State) : Order :=
  { target := s.recordHeader.target
    par := (s.xm.readBlock (s.cw.nextOffset + 2) (s.recordHeader.length - 2)).map BitVec.toNat }

/-- The walker adds 1 to the order index (R167). -/
def State.countRecord (s : State) : State := { s with cw := { s.cw with orderIndex := s.cw.orderIndex + 1 } }

/-- The walker writes a result into the result word of the record at off, where that word lies in the chain region (R168,
R169). -/
def State.writeResult (s : State) (off : Nat) (r : OrderResult) : State :=
  if 0x0400 ≤ off + 1 ∧ off + 1 ≤ 0x0FFF then { s with xm := s.xm.write (off + 1) r.word } else s

/-- The walk ends with an outcome: IDLE, the order index kept, CHAIN raised (R170). -/
def State.endWalk (s : State) (o : WalkOutcome) : State :=
  State.notify { s with cw := { s.cw with walking := false, outcome := o } } .chain

/-- What the walker does once the owner has given its result (R169, R170): it writes the result word, and the walk ends
REFUSED at a refusal, ENDED at the end mark, and goes on to the next record otherwise. -/
def State.finishRecord (s : State) (off : Nat) (h : Header) (r : OrderResult) : State :=
  let t := s.writeResult off r
  if !r.accepted then t.endWalk .refused
  else if h.endMark then t.endWalk .ended
  else { t with cw := { t.cw with nextOffset := off + h.length } }

/-- The take-up of an order of kind k by its owner, one event (R167, R169). It happens when the walker is WALKING and the
record at the next offset passes the checks of R168 and is of this kind; otherwise no such take-up falls (assumption 2). -/
def takeUp (k : OrderKind) (owner : Order → State → State × OrderResult) (s : State) : State :=
  if s.recordKind = some k then
    let done := owner s.recordOrder s.countRecord
    done.1.finishRecord s.cw.nextOffset s.recordHeader done.2
  else s

/-- The take-up of a record with a format fault (R168): FORMAT is written where the result word lies in the chain region, and
the walk ends FAULT. -/
def State.takeUpFault (s : State) : State :=
  match s.cw.walking, s.formatFault with
  | true, some d => (s.countRecord.writeResult s.cw.nextOffset (resFormat d)).endWalk .fault
  | _, _ => s

/-- ORDER_FORMAT_FAULT (R168). -/
def execOrderFormatFault (s : State) : Host.Outcome State Fault Refusal := .next s.takeUpFault

end Sys2Proof.Machine
end

