-- ==== Sys2Proof/Machine/RunControl.lean ====
section
/-! DEFINITION. Changes of drive state made by run control (R1 to R10), the speed handed over by the position tracker (R95), and
the commands BREAK_AWAY_EXPIRY, STOP_HOLD_EXPIRY and SPEED_WINDOW_EXPIRY. -/

namespace Sys2Proof.Machine

/-- The stop-hold condition: Tcmd 0 and the speed's magnitude at most the creep speed (R10). -/
def State.holdCondition (s : State) : Bool := s.tru.tcmd == 0 && decide (s.pt.speedMag ≤ s.rc.creep)

/-- RC evaluates the stop-hold condition in STOPPING (R10): the timer starts when the condition becomes true, runs on while it
stays true, and stops when it is false. -/
def State.evalStopHold (s : State) : State :=
  if s.rc.drive = .stopping then
    let timer := if s.holdCondition then
        (match s.rc.stopHold with
        | some d => some d
        | none => some (s.now + s.rc.stopHoldTime * 1000))
      else none
    { s with rc := { s.rc with stopHold := timer } }
  else s

/-- STARTING or RUNNING to STOPPING: the break-away timer stops, STATE is raised, the stop-hold condition is evaluated (R9). -/
def State.enterStopping (s : State) : State :=
  (State.notify { s with rc := { s.rc with drive := .stopping, breakAway := none } } .state).evalStopHold

/-- STARTING to RUNNING: the break-away timer stops, STATE is raised (R8). -/
def State.enterRunning (s : State) : State :=
  State.notify { s with rc := { s.rc with drive := .running, breakAway := none } } .state

/-- STOPPING to STOPPED: PERMIT falls, the regulators block, the watch counts become 0, STATE is raised (R2, R3, R10, R34). -/
def State.enterStopped (s : State) : State :=
  State.notify
    { s with
      rc := { s.rc with drive := .stopped, permit := false, stopHold := none }
      tru := { s.tru with excessCount := 0, imbCount := 0 }
      reg := s.reg.map Regulator.block } .state

/-- TRIPPED to STOPPED at an accepted TRIP RESET: STATE is raised (R12). -/
def State.leaveTripped (s : State) : State :=
  State.notify { s with rc := { s.rc with drive := .stopped } } .state

/-- RC's use of a speed handed over (R8, R10). -/
def State.useSpeed (s : State) : State :=
  match s.rc.drive with
  | .starting => if s.rc.creep ≤ s.pt.speedMag then s.enterRunning else s
  | .stopping => s.evalStopHold
  | .stopped | .running | .tripped => s

/-- The speed of a window of n net pulses (R95). -/
def speedOf (n : Int) (kspd : Nat) : Int := clamp (n * (kspd : Int) / 256) (-32767) 32767

/-- A speed-window expiry (R95): the speed, Nw to 0, the timer restarted with the Ws in force, the speed to RC. -/
def State.speedWindow (s : State) : State :=
  match s.pt.timer with
  | none => s
  | some d =>
    let t := s.reach d
    State.useSpeed
      { t with pt := { t.pt with
          speed := speedOf t.pt.nw t.pt.kspd
          nw := 0
          timer := some (t.now + t.pt.ws * 1000) } }

/-- The break-away timer expires: in STARTING, STALL is reported (R7). -/
def State.breakAwayExpires (s : State) : State :=
  match s.rc.breakAway with
  | none => s
  | some d =>
    let t := s.reach d
    let u := { t with rc := { t.rc with breakAway := none } }
    u.reportIf (u.rc.drive == .starting) .stall

/-- The stop-hold timer expires: in STOPPING, the drive becomes STOPPED (R10). -/
def State.stopHoldExpires (s : State) : State :=
  match s.rc.stopHold with
  | none => s
  | some d =>
    let t := s.reach d
    let u := { t with rc := { t.rc with stopHold := none } }
    if u.rc.drive = .stopping then u.enterStopped else u

/-- BREAK_AWAY_EXPIRY (R7). -/
def execBreakAwayExpiry (s : State) : Host.Outcome State Fault Refusal := .next s.breakAwayExpires

/-- STOP_HOLD_EXPIRY (R10). -/
def execStopHoldExpiry (s : State) : Host.Outcome State Fault Refusal := .next s.stopHoldExpires

/-- SPEED_WINDOW_EXPIRY (R95). -/
def execSpeedWindowExpiry (s : State) : Host.Outcome State Fault Refusal := .next s.speedWindow

end Sys2Proof.Machine
end

