-- ==== Sys2Proof/Machine/Position.lean ====
section
/-! DEFINITION. The position tracker: pulses and double steps (R80, R81), markers and the tracking state (R82 to R84), the
working table (R86 to R88), revolution boundaries (R89, R90), publication (R93), and its commands. -/

namespace Sys2Proof.Machine

/-! ### The tracking state and the working table -/

/-- The tracking state becomes UNCERTAIN at an event that is no boundary: a move from TRACKING taints the table (R83). -/
def PositionTracker.doubt (p : PositionTracker) : PositionTracker :=
  { p with taint := p.taint || p.tracking == .tracking, tracking := .uncertain }

/-- A new working table starts at time t with this start kind, tainted when the tracking state is UNCERTAIN (R86). -/
def PositionTracker.newTable (p : PositionTracker) (kind : BoundaryKind) (t : Nat) : PositionTracker :=
  { p with
    table := List.replicate 32 {}
    taint := p.tracking == .uncertain
    startKind := kind
    startTime := t
    netCount := 0 }

/-- A torque fold into one entry (R87). -/
def WorkEntry.foldTorque (value : Int) (e : WorkEntry) : WorkEntry :=
  if e.count < 65535 then
    { e with
      count := e.count + 1
      sum := e.sum + value
      tmax := some (match e.tmax with | some m => max m value | none => value)
      tmin := some (match e.tmin with | some m => min m value | none => value) }
  else { e with countFull := true }

/-- A vibration fold into one entry (R88). -/
def WorkEntry.foldVibration (group : Chan) (value : Nat) (e : WorkEntry) : WorkEntry :=
  match group with
  | .a => { e with vpeakA := max e.vpeakA value }
  | .b => { e with vpeakB := max e.vpeakB value }

/-- A torque fold goes to the sector PT holds (R87). -/
def State.foldTorque (s : State) (value : Int) : State :=
  { s with pt := { s.pt with table := modifyAt (WorkEntry.foldTorque value) s.pt.sector s.pt.table } }

/-- A vibration fold goes to the sector PT holds (R88). -/
def State.foldVibration (s : State) (group : Chan) (value : Nat) : State :=
  { s with pt := { s.pt with table := modifyAt (WorkEntry.foldVibration group value) s.pt.sector s.pt.table } }

/-! ### Publication (R93) -/

/-- A publication begins: the revolution number advances and the copy takes it (R93). -/
def PositionTracker.beginPublication (p : PositionTracker) (r : Revolution) : PositionTracker :=
  let n := (p.revNumber + 1) % 65536
  { p with revNumber := n, inFlight := some ⟨n, r⟩ }

/-- An ended revolution is handed to publication: it begins at once, or waits, replacing one that waits (R93). -/
def PositionTracker.publish (p : PositionTracker) (r : Revolution) : PositionTracker :=
  match p.inFlight with
  | none => p.beginPublication r
  | some _ => { p with waiting := some r }

/-- Publication completes: the words stand in exchange memory, REVOLUTION is raised, and a copy waiting begins (R93). -/
def State.completePublication (s : State) : State :=
  match s.pt.inFlight with
  | none => s
  | some pub =>
    let t := State.notify
      { s with xm := s.xm.writeAll pub.cells, pt := { s.pt with inFlight := none, waiting := none } } .revolution
    match s.pt.waiting with
    | none => t
    | some r => { t with pt := t.pt.beginPublication r }

/-! ### Boundaries (R89, R90) -/

/-- Whether the revolution that a boundary of this kind ends is valid (R90). -/
def PositionTracker.revolutionValid (p : PositionTracker) (kind : BoundaryKind) : Bool :=
  kind == .inWindow && p.startKind == .inWindow && !p.taint &&
    decide ((p.p : Int) - p.tol ≤ p.netCount) && decide (p.netCount ≤ (p.p : Int) + p.tol)

/-- The revolution that a boundary of this kind ends at time t (R89). -/
def PositionTracker.endedRevolution (p : PositionTracker) (kind : BoundaryKind) (t : Nat) : Revolution :=
  { table := p.table
    valid := p.revolutionValid kind
    startKind := p.startKind
    endKind := kind
    duration := t - p.startTime
    netCount := p.netCount }

/-- A revolution boundary at time t: the table is handed to publication in forward rotation and discarded in reverse, the
tracking state becomes the one given, and a new table starts (R89). -/
def PositionTracker.boundary (p : PositionTracker) (kind : BoundaryKind) (becomes : Tracking) (t : Nat) : PositionTracker :=
  let q := if p.forward then p.publish (p.endedRevolution kind t) else p
  PositionTracker.newTable { q with tracking := becomes } kind t

/-! ### Pulses (R80, R81, R84) -/

/-- Saturation at the limits of a signed 32-bit value (R81). -/
def sat32 (i : Int) : Int := clamp i (-2147483648) 2147483647

/-- A pulse in the forward or the reverse sense (R81). -/
def PositionTracker.pulse (p : PositionTracker) (fwd : Bool) : PositionTracker :=
  let step : Int := if fwd then 1 else -1
  let wraps := if fwd then p.pc + 1 == p.p else p.pc == 0
  let pc := if fwd then (if wraps then 0 else p.pc + 1) else (if wraps then p.p - 1 else p.pc - 1)
  { p with
    pc := pc
    sector := pc * 32 / p.p
    wrapped := if wraps then fwd else p.wrapped
    nw := p.nw + step
    netCount := sat32 (p.netCount + step)
    taint := p.taint || p.forward != fwd
    forward := fwd }

/-- A forward pulse that brings Pc to Tol + 1 with wrapped set is a missed-marker boundary (R84). -/
def PositionTracker.missedMarker (p : PositionTracker) (t : Nat) : PositionTracker :=
  if p.wrapped ∧ p.pc = p.tol + 1 then
    PositionTracker.boundary { p with wrapped := false } .missedMarker .uncertain t
  else p

/-- A change of the source's pair to a combination (R80), combinations numbered in the forward sense: one step forward or
reverse is a pulse, two steps a double step, and with no last combination the change only sets it. -/
def PositionTracker.quadrature (p : PositionTracker) (comb : Fin 4) (t : Nat) : PositionTracker :=
  match p.lastComb with
  | none => { p with lastComb := some comb }
  | some last =>
    let q := { p with lastComb := some comb }
    if comb = last + 1 then (q.pulse true).missedMarker t
    else if comb + 1 = last then q.pulse false
    else if comb = last then p
    else q.doubt

/-! ### Markers (R82) -/

/-- The marker window: Pc in P - Tol to P - 1, or in 0 to Tol (R82). -/
def PositionTracker.inWindow (p : PositionTracker) : Bool :=
  decide (p.p - p.tol ≤ p.pc ∧ p.pc < p.p) || decide (p.pc ≤ p.tol)

/-- A marker arrival: classified against the window, handled as a boundary, and then Pc and the sector are 0 and wrapped is
clear (R82). -/
def PositionTracker.marker (p : PositionTracker) (t : Nat) : PositionTracker :=
  let q := if p.inWindow then p.boundary .inWindow .tracking t else p.boundary .outOfWindow .uncertain t
  { q with pc := 0, sector := 0, wrapped := false }

/-- The position source is switched: the pair's last combination is forgotten and the position becomes doubtful (R16, R96). -/
def PositionTracker.switchSource (p : PositionTracker) (ch : Chan) : PositionTracker :=
  PositionTracker.doubt { p with source := ch, lastComb := none }

/-- QUADRATURE_CHANGE (R80): the pair of the source counts, the other is ignored; nothing is taken during INIT. -/
def execQuadratureChange (ch : Chan) (combination : Fin 4) (s : State) : Host.Outcome State Fault Refusal :=
  .next (if s.startUp = .ready ∧ ch = s.pt.source then { s with pt := s.pt.quadrature combination s.now } else s)

/-- MARKER_ARRIVAL (R82): rising edges during INIT are ignored. -/
def execMarkerArrival (s : State) : Host.Outcome State Fault Refusal :=
  .next (if s.startUp = .ready then { s with pt := s.pt.marker s.now } else s)

/-- PUBLICATION_COMPLETION (R93). -/
def execPublicationCompletion (s : State) : Host.Outcome State Fault Refusal := .next s.completePublication

end Sys2Proof.Machine
end

