-- ==== Sys2Proof/Machine/Vibration.lean ====
section
/-! DEFINITION. The vibration watch: derate (R118 to R122), the taking of frames (R103 to R109), evaluations (R110 to R117), the
sensor port (R99 to R102), and its commands. -/

namespace Sys2Proof.Machine

/-! ### Derate (R118 to R122) -/

/-- Derate changes to a state; the change is reported with its kind, an entry change when derate was NONE (R122). -/
def State.setDerate (s : State) (d : Derate) : State :=
  if s.vw.derate = d then s
  else State.notifyDerate { s with vw := { s.vw with derate := d } } (s.vw.derate == .none)

/-- The quiet time becomes 0 (R120). -/
def State.zeroQuiet (s : State) : State := { s with vw := { s.vw with quietTime := 0 } }

/-- VW establishes derate with reason BLIND: from NONE, from ALERT, or already so; the quiet time becomes 0 (R119). -/
def State.establishBlind (s : State) : State := (s.setDerate .blind).zeroQuiet

/-- VW establishes BLIND when a condition holds and the drive is STARTING, RUNNING or STOPPING (R119). -/
def State.blindIf (s : State) (c : Bool) : State := if c && s.rc.drive.live then s.establishBlind else s

/-- The port is LOST or a trip-enabled channel is in FAULT: the test at RUN acceptance (R6, R119). -/
def VibrationWatch.blindCondition (v : VibrationWatch) : Bool :=
  v.rx == .lost || v.channels.toList.any (fun c => c.tripEnable && c.level == .fault)

/-! ### Blocks -/

/-- A new empty block with both marks clear (R109, R102, R124). -/
def SensorChannel.newBlock (c : SensorChannel) : SensorChannel :=
  { c with sumSq := 0, peak := 0, count := 0, gapped := false, faultSeen := false }

/-- The four persistence counters at 0. -/
def SensorChannel.zeroCounters (c : SensorChannel) : SensorChannel := { c with up := 0, dn := 0, low := 0, below := 0 }

/-! ### Taking a frame (R105 to R109) -/

/-- The offset rounded to a whole count (R105 step 1). -/
def SensorChannel.offsetCount (c : SensorChannel) : Int := (c.off + 128) / 256

/-- The offset-corrected sample (R105 step 2). -/
def SensorChannel.corrected (c : SensorChannel) (x : Int) : Int := clamp (x - c.offsetCount) (-32768) 32767

/-- The magnitude that peaks and folds take: at most 32767 (R106, R108). -/
def magnitude (ac : Int) : Nat := min ac.natAbs 32767

/-- The stuck run after a sample (R107). -/
def SensorChannel.nextStuck (c : SensorChannel) (k : Nat) (x : Int) : Nat :=
  if c.lastRaw = some x then min (c.stuck + 1) k else 0

/-- The per-sample work of an enabled channel (R105 to R107): offset, sum of squares, peak, count, stuck and bias tests; a bad
sample of a channel not yet in FAULT enters FAULT with the counters at 0 (R115). -/
def SensorChannel.sample (c : SensorChannel) (k : Nat) (x : Int) (bias : Bool) : SensorChannel :=
  let ac := c.corrected x
  let stuck := c.nextStuck k x
  let bad := decide (k ≤ stuck) || bias
  let t := { c with
    off := c.off + (256 * x - c.off) / 1024
    sumSq := c.sumSq + ac.natAbs * ac.natAbs
    peak := max c.peak (magnitude ac)
    count := c.count + 1
    stuck := stuck
    lastRaw := some x
    faultSeen := c.faultSeen || bad }
  if bad && c.level != .fault then { t.zeroCounters with level := .fault } else t

/-- All channels after the per-sample work of a frame; disabled ones are ignored (R103). -/
def VibrationWatch.sampled (v : VibrationWatch) (f : SampleFrame) : Octet SensorChannel :=
  Octet.build fun i =>
    let c := v.channels.get i
    if c.enabled then c.sample v.k (f.samples.get i) (f.bias.getLsbD i.val) else c

/-- The channels that a frame takes into FAULT (R107). -/
def VibrationWatch.faultEntries (v : VibrationWatch) (f : SampleFrame) : List (Fin 8) :=
  sensorNumbers.filter fun i => (v.channels.get i).level != .fault && ((v.sampled f).get i).level == .fault

/-- The magnitudes of a frame among the eligible channels of a group: enabled, of the group, and not in FAULT after the frame's
tests (R108). -/
def VibrationWatch.groupMagnitudes (v : VibrationWatch) (f : SampleFrame) (group : Chan) : List Nat :=
  (sensorNumbers.filter fun i =>
      let c := (v.sampled f).get i
      c.enabled && c.group == group && c.level != .fault).map
    fun i => magnitude ((v.channels.get i).corrected (f.samples.get i))

/-- The sector fold of one group: its largest magnitude, or no fold when no channel is eligible (R108). -/
def State.foldGroup (s : State) (group : Chan) (magnitudes : List Nat) : State :=
  if magnitudes.isEmpty then s else s.foldVibration group (magnitudes.foldl max 0)

/-- A channel whose block is complete (R109). -/
def SensorChannel.complete (c : SensorChannel) (n : Nat) : Bool := c.enabled && c.count == n

/-- What an evaluation latches of a completed block (R109). -/
def SensorChannel.latch (c : SensorChannel) (i : Fin 8) (n : Nat) : Latched :=
  { channel := i, n := n, sumSq := c.sumSq, peak := c.peak, gapped := c.gapped, faultSeen := c.faultSeen }

/-- The number of channels enabled (R109). -/
def VibrationWatch.enabledCount (v : VibrationWatch) : Nat := (v.channels.toList.filter (·.enabled)).length

/-- The completion test (R109): completed blocks are latched, new ones begin, and the unit becomes EVALUATING. -/
def State.completionTest (s : State) : State :=
  let done := sensorNumbers.filter fun i => (s.vw.channels.get i).complete s.vw.n
  if done.isEmpty then s
  else
    { s with vw := { s.vw with
        channels := s.vw.channels.map fun c => if c.complete s.vw.n then c.newBlock else c
        evaluation := some
          { due := s.now + Config.evalTimePerChannel * s.vw.enabledCount
            latched := done.map fun i => (s.vw.channels.get i).latch i s.vw.n } } }

/-- The effects of channels entering FAULT: LEVEL entry changes, the quiet time 0, and BLIND for a trip-enabled one while the
drive is live (R115, R117, R120). -/
def State.faultEffects (s : State) (entries : List (Fin 8)) : State :=
  if entries.isEmpty then s
  else (s.notifyLevel true).zeroQuiet.blindIf (entries.any fun i => (s.vw.channels.get i).tripEnable)

/-- The arithmetic unit takes a frame (R103): the per-sample work, the effects of FAULT entries, the sector folds, the
completion test. -/
def State.takeFrame (s : State) (f : SampleFrame) : State :=
  let t := State.faultEffects { s with vw := { s.vw with channels := s.vw.sampled f } } (s.vw.faultEntries f)
  ((t.foldGroup .a (s.vw.groupMagnitudes f .a)).foldGroup .b (s.vw.groupMagnitudes f .b)).completionTest

/-- The unit takes waiting frames, oldest first, until none is left or one begins an evaluation (R103). -/
def State.drain (s : State) : List SampleFrame → State
  | [] => { s with vw := { s.vw with fifo := [] } }
  | f :: rest =>
    let t := State.takeFrame { s with vw := { s.vw with fifo := rest } } f
    if t.vw.evaluation.isSome then t else t.drain rest

/-- An accepted frame is admitted (R103), or discarded when three wait already: a gap, and every enabled channel's block is
gapped (R104). -/
def State.admitFrame (s : State) (f : SampleFrame) : State :=
  if Config.fifoMax ≤ s.vw.fifo.length then
    { s with vw := { s.vw with
        gaps := s.vw.gaps.inc
        channels := s.vw.channels.map fun c => if c.enabled then { c with gapped := true } else c } }
  else if s.vw.evaluation.isSome then { s with vw := { s.vw with fifo := s.vw.fifo ++ [f] } }
  else s.drain (s.vw.fifo ++ [f])

/-! ### Evaluations (R110 to R117) -/

/-- RMS of a latched block (R111). -/
def Latched.rms (l : Latched) : Nat := min (isqrt (l.sumSq / l.n)) 32767

/-- The classes of R113. -/
inductive BlockClass where
  | high2
  | high1
  | mid
  | low
  deriving DecidableEq, Repr

/-- Classify an RMS, with C = max(A - H, 0) (R113). -/
def SensorChannel.classify (c : SensorChannel) (rms : Nat) : BlockClass :=
  if c.dangerLevel ≤ rms then .high2
  else if c.alertLevel ≤ rms then .high1
  else if c.alertLevel - c.hysteresis ≤ rms then .mid
  else .low

/-- The persistence counters after a block of a class (R113). -/
def SensorChannel.moveCounters (c : SensorChannel) : BlockClass → SensorChannel
  | .high2 => { c with up := satInc c.up, dn := satInc c.dn, low := 0, below := 0 }
  | .high1 => { c with up := satInc c.up, dn := 0, low := 0, below := satInc c.below }
  | .mid => { c with up := 0, dn := 0, low := 0, below := satInc c.below }
  | .low => { c with up := 0, dn := 0, low := satInc c.low, below := satInc c.below }

/-- The level state after the counters have moved: the first row that applies (R114). -/
def SensorChannel.nextLevel (c : SensorChannel) (pa pcl pd : Nat) : Level :=
  match c.level with
  | .quiet => if pd ≤ c.dn then .danger else if pa ≤ c.up then .alert else .quiet
  | .alert => if pd ≤ c.dn then .danger else if pcl ≤ c.low then .quiet else .alert
  | .danger => if pcl ≤ c.below then .alert else .danger
  | .fault => .fault
  | .disabled => .disabled

/-- An injection used up by one block: at count 0 it ends (R112). -/
def Injection.useOne (i : Injection) : Option Injection := if i.count ≤ 1 then none else some { i with count := i.count - 1 }

/-- The judgement of an ungapped latched block by its channel (R110 step 1): in FAULT, the results are kept and the FAULT exit
test is made (R115); otherwise injection, results, classification, counters and level state (R111 to R114). -/
def SensorChannel.judge (c : SensorChannel) (v : VibrationWatch) (l : Latched) : SensorChannel :=
  if c.level = .fault then
    let t := { c with lastRms := l.rms, lastPeak := l.peak }
    if l.faultSeen then t else { t.zeroCounters with level := .quiet }
  else
    let rms := match c.injection with
      | some i => i.value
      | none => l.rms
    let t := SensorChannel.moveCounters
      { c with lastRms := rms, lastPeak := l.peak, injection := c.injection.bind Injection.useOne } (c.classify rms)
    { t with level := t.nextLevel v.pa v.pcl v.pd }

/-- A latched block is judged: not gapped, and its channel not disabled since the latching (R110). -/
def Latched.judged (l : Latched) : Bool := !l.gapped && !l.dropped

/-- A channel has entered ALERT, DANGER or FAULT (R117). -/
def entryChange (new : Level) : Bool := new == .alert || new == .danger || new == .fault

/-- One latched block takes effect (R110 step 1): the channel is judged, a change of its level state is reported with its kind
(R117), and an entry into ALERT, DANGER or FAULT sets the quiet time to 0 (R120). -/
def State.judgeBlock (s : State) (l : Latched) : State :=
  if l.judged then
    let old := s.vw.channels.get l.channel
    let new := old.judge s.vw l
    let t := { s with vw := { s.vw with channels := s.vw.channels.set l.channel new } }
    if new.level = old.level then t
    else if entryChange new.level then (t.notifyLevel true).zeroQuiet
    else t.notifyLevel false
  else s

/-- The latched blocks in channel order (R110 step 1). -/
def State.judgeAll (s : State) (ls : List Latched) : State := ls.foldl State.judgeBlock s

/-- The channels whose block takes them into DANGER with trip enable set (R116). -/
def VibrationWatch.dangers (before after : VibrationWatch) : List (Fin 8) :=
  sensorNumbers.filter fun i =>
    (before.channels.get i).level != .danger && (after.channels.get i).level == .danger && (after.channels.get i).tripEnable

/-- Some enabled channel not in FAULT is in ALERT or DANGER (R118). -/
def VibrationWatch.alarmed (v : VibrationWatch) : Bool :=
  v.channels.toList.any fun c => c.level == .alert || c.level == .danger

/-- An effective evaluation moves the alert time, and at Ld establishes derate with reason ALERT from NONE (R118). -/
def State.moveAlertTime (s : State) : State :=
  let time := if s.vw.alarmed then satInc s.vw.alertTime else 0
  let t := { s with vw := { s.vw with alertTime := time } }
  if s.vw.ld ≤ time ∧ s.vw.derate = .none then (t.setDerate .alert).zeroQuiet else t

/-- An effective evaluation moves the quiet time while derate is ESTABLISHED, and at Lr releases it (R120). -/
def State.moveQuietTime (s : State) : State :=
  if s.vw.derate = .none then s
  else if s.vw.quietCondition then
    let time := satInc s.vw.quietTime
    let t := { s with vw := { s.vw with quietTime := time } }
    if s.vw.lr ≤ time then (t.setDerate .none).zeroQuiet else t
  else s.zeroQuiet

/-- TU takes the reports of VIBRATION DANGER in channel order (R116). -/
def State.reportDangers (s : State) (channels : List (Fin 8)) : State :=
  channels.foldl (fun t i => t.report (.vibrationDanger i)) s

/-- The end of an evaluation (R110): step 1 the blocks, step 2 the alert and quiet times when the evaluation is effective, step
3 the reports while the drive is live, step 4 COLLECTING and the waiting frames. -/
def State.evaluationEnds (s : State) : State :=
  match s.vw.evaluation with
  | none => s
  | some e =>
    let t := s.reach e.due
    let u := t.judgeAll e.latched
    let v := if e.latched.any Latched.judged then u.moveAlertTime.moveQuietTime else u
    let w := if v.rc.drive.live then v.reportDangers (t.vw.dangers u.vw) else v
    State.drain { w with vw := { w.vw with evaluation := none } } w.vw.fifo

/-! ### The sensor port (R99 to R102) -/

/-- UP to LOST: blocks in progress are discarded, stuck runs and last raw samples cleared, waiting frames dropped; BLIND while
the drive is live; the quiet time 0 (R102). -/
def State.portLost (s : State) : State :=
  let t := State.notify
    { s with vw := { s.vw with
        rx := .lost
        fifo := []
        channels := s.vw.channels.map fun c => if c.enabled then { c.newBlock with stuck := 0, lastRaw := none } else c } }
    .link
  (t.blindIf true).zeroQuiet

/-- A sample frame is discarded (R100). -/
def State.discardSample (s : State) (countCheck : Bool) : State :=
  { s with vw := { s.vw with
      goodRun := 0
      checkErrors := if countCheck then s.vw.checkErrors.inc else s.vw.checkErrors } }

/-- The frames missed between two sequences (R65, R100). -/
def missedBetween (last : Option Nat) (seq : Nat) : Nat :=
  match last with
  | some q => (seq + 512 - q - 1) % 256
  | none => 0

/-- A sample frame is accepted: sequence, missed frames, loss timer, good run and receive state, then admission (R100, R101). -/
def State.acceptSample (s : State) (bytes : List Byte) : State :=
  let seq := (byteAt bytes 0).toNat
  let run := min (s.vw.goodRun + 1) 4
  let rises := s.vw.rx != .up && run == 4
  let t := { s with vw := { s.vw with
    lastSeq := some seq
    missed := s.vw.missed.add (missedBetween s.vw.lastSeq seq)
    lossTimer := some (s.now + 4 * s.vw.ts)
    goodRun := run
    rx := if rises then .up else s.vw.rx } }
  (t.notifyIf rises .link).admitFrame (decodeSample bytes)

/-- A sample frame completes (R100): the tests in order. No frame completes while the receiver takes no bytes (R99). -/
def State.sampleFrame (s : State) (frame : List RxByte) : State :=
  if s.vw.synced = false ∨ frame = [] then s
  else match checkedFrame 20 frame with
    | none => s.discardSample true
    | some bytes =>
      if s.vw.lastSeq = some (byteAt bytes 0).toNat then s.discardSample false else s.acceptSample bytes

/-- The port's loss timer expires (R101). -/
def State.portLossExpires (s : State) : State :=
  match s.vw.lossTimer with
  | none => s
  | some d =>
    let t := s.reach d
    let u := { t with vw := { t.vw with lossTimer := none, goodRun := 0 } }
    if u.vw.rx = .up then u.portLost else u

/-- SAMPLE_FRAME_COMPLETION (R99, R100). -/
def execSampleFrameCompletion (frame : List RxByte) (s : State) : Host.Outcome State Fault Refusal := .next (s.sampleFrame frame)

/-- PORT_LOSS_EXPIRY (R101, R102). -/
def execPortLossExpiry (s : State) : Host.Outcome State Fault Refusal := .next s.portLossExpires

/-- EVALUATION_END (R110). -/
def execEvaluationEnd (s : State) : Host.Outcome State Fault Refusal := .next s.evaluationEnds

end Sys2Proof.Machine
end

