-- ==== Sys2Proof/Machine/Links.lean ====
section
/-! DEFINITION. The converter links (R60 to R76) and the regulators' work at an arrival (R46 to R51), with the commands of the
lines. -/

namespace Sys2Proof.Machine

/-! ### The regulator at an arrival (R46 to R51) -/

/-- The integral term: floor((Acc + 32768) / 65536) (R48, R50). -/
def integralTerm (acc : Int) : Int := (acc + 32768) / 65536

/-- The proportional term: floor((Kp * e + 128) / 256) (R48). -/
def Regulator.proportional (r : Regulator) (e : Int) : Int := ((r.kp : Int) * e + 128) / 256

/-- Acc after the decision to integrate: held while the output pushes a limit the way the error asks, else Acc + Ki * e within
the bound (R49). -/
def Regulator.integrate (r : Regulator) (e : Int) : Int :=
  let u0 := r.proportional e + integralTerm r.acc
  let lim := (r.vlim : Int)
  if (lim ≤ u0 ∧ 0 < e) ∨ (u0 ≤ -lim ∧ e < 0) then r.acc
  else clamp (r.acc + (r.ki : Int) * e) (-lim * 65536) (lim * 65536)

/-- The voltage command: P + I, the I of the Acc that R49 leaves, clamped to Vlim (R50). -/
def Regulator.voltage (r : Regulator) (e : Int) : Int :=
  clamp (r.proportional e + integralTerm (r.integrate e)) (-(r.vlim : Int)) r.vlim

/-- Overcurrent: |Imeas| > Ioc (R47). -/
def Regulator.overcurrent (r : Regulator) (imeas : Int) : Bool := decide (r.ioc < imeas.natAbs)

/-- The regulator after an arrival, with the command it hands over (R47, R50, R51). -/
def Regulator.arrival (r : Regulator) (iref imeas : Int) : Regulator × Command :=
  if r.overcurrent imeas then ({ r with lastVcmd := 0 }, blockCommand)
  else if r.active then
    let e := iref - imeas
    ({ r with acc := r.integrate e, lastVcmd := r.voltage e }, ⟨true, r.voltage e⟩)
  else (r, blockCommand)

/-- An arrival at the regulator of a channel (R46): its frame goes to the transmitter, and then an overcurrent is reported. -/
def State.arrival (s : State) (ch : Chan) (imeas : Int) : State :=
  let r := s.reg.get ch
  let out := r.arrival (s.tru.iref.get ch) imeas
  let t := (s.modReg ch fun _ => out.1).modLink ch fun l => l.handOver out.2 s.now
  t.reportIf (r.overcurrent imeas) (.overcurrent ch)

/-! ### Frames (R65 to R71) -/

/-- A frame fails test 1 or 2: check errors +1, good run 0 (R65). -/
def Link.discardBad (l : Link) : Link := { l with goodRun := 0, checkErrors := l.checkErrors.inc }

/-- A frame is a duplicate: duplicates +1, good run 0 (R65). -/
def Link.discardDuplicate (l : Link) : Link := { l with goodRun := 0, duplicates := l.duplicates.inc }

/-- An acceptance brings the link UP: it is not UP and the good run becomes 4 (R67). -/
def Link.rises (l : Link) : Bool := l.rx != .up && min (l.goodRun + 1) 4 == 4

/-- The port at an acceptance: missed frames (R65), and steps 1 to 4 of R66. -/
def Link.accept (l : Link) (f : MeasureFrame) (expiry : Nat) : Link :=
  { l with
    missed := l.missed.add (missedBetween l.lastSeq f.seq)
    lastSeq := some f.seq
    lossTimer := some expiry
    goodRun := min (l.goodRun + 1) 4
    rx := if l.rises then .up else l.rx
    imeas := f.imeas
    iavail := f.iavail
    ready := f.ready
    fault := f.fault }

/-- A measure frame is accepted (R66): the port, LINK when it rises, the regulator's arrival, and then the converter-condition
tests against the flags held before (R70, R71). The drive state of R71 is the one the acceptance was made in (assumption 11). -/
def State.acceptMeasure (s : State) (ch : Chan) (f : MeasureFrame) : State :=
  let old := s.link.get ch
  let inService := !s.rc.isolated.get ch
  let t := s.modLink ch fun l => l.accept f (s.now + s.tloss)
  let u := (t.notifyIf old.rises .link).arrival ch f.imeas
  let v := u.reportIf (inService && f.fault && !old.fault) (.converterFault ch .fault)
  v.reportIf (inService && s.rc.drive.live && !f.ready && old.ready) (.converterFault ch .readyLost)

/-- A frame completes on a link (R61, R65): the tests in order. No frame completes while the receiver takes no bytes (R60). -/
def State.linkFrame (s : State) (ch : Chan) (frame : List RxByte) : State :=
  if (s.link.get ch).synced = false ∨ frame = [] then s
  else match checkedFrame 8 frame with
    | none => s.modLink ch Link.discardBad
    | some bytes =>
      if (s.link.get ch).lastSeq = some (byteAt bytes 0).toNat then s.modLink ch Link.discardDuplicate
      else s.acceptMeasure ch (decodeMeasure bytes)

/-! ### The line (R60, R62, R68) -/

/-- A receiver has seen two byte times of idle (R60, R99): it takes bytes from here. None does during INIT, nor while a break
is held. -/
def State.synchronise (s : State) (r : Receiver) : State :=
  if s.startUp ≠ .ready then s
  else match r with
    | .link ch => if (s.link.get ch).breakHeld then s else s.modLink ch fun l => { l with synced := true }
    | .sensor => { s with vw := { s.vw with synced := true } }

/-- A break is detected (R62): good run 0, break held, unsynchronised, and CONVERTER FAULT of kind BREAK unless the channel is
isolated. Only a synchronised receiver detects one. -/
def State.breakDetected (s : State) (ch : Chan) : State :=
  if (s.link.get ch).synced then
    let t := s.modLink ch fun l => { l with goodRun := 0, breakHeld := true, synced := false }
    t.reportIf (!s.rc.isolated.get ch) (.converterFault ch .lineBreak)
  else s

/-- The line returns high after a break (R62). -/
def State.breakCleared (s : State) (ch : Chan) : State := s.modLink ch fun l => { l with breakHeld := false }

/-- A link's loss timer expires (R68): good run 0; an UP link becomes LOST with LINK, and LINK LOSS is reported unless the
channel is isolated. -/
def State.linkLossExpires (s : State) (ch : Chan) : State :=
  match (s.link.get ch).lossTimer with
  | none => s
  | some d =>
    let t := (s.reach d).modLink ch fun l => { l with lossTimer := none, goodRun := 0 }
    if (t.link.get ch).rx = .up then
      let u := (t.modLink ch fun l => { l with rx := .lost }).notify .link
      u.reportIf (!u.rc.isolated.get ch) (.linkLoss ch)
    else t

/-- A command frame completes (R74): the holding slot's frame starts at once, or the stage becomes IDLE. -/
def Link.transmitDone (l : Link) (now : Nat) : Link :=
  match l.holding with
  | some c => { l.startFrame c now with holding := none }
  | none => { l with sending := none }

/-- A command frame completes on a line (R74). -/
def State.transmitCompletes (s : State) (ch : Chan) : State :=
  match (s.link.get ch).sending with
  | none => s
  | some f =>
    let t := s.reach f.due
    t.modLink ch fun l => l.transmitDone t.now

/-- LINK_FRAME_COMPLETION (R65). -/
def execLinkFrameCompletion (ch : Chan) (frame : List RxByte) (s : State) : Host.Outcome State Fault Refusal :=
  .next (s.linkFrame ch frame)

/-- RECEIVER_SYNCHRONISED (R60, R99). -/
def execReceiverSynchronised (receiver : Receiver) (s : State) : Host.Outcome State Fault Refusal :=
  .next (s.synchronise receiver)

/-- LINK_BREAK_DETECTED (R62). -/
def execLinkBreakDetected (ch : Chan) (s : State) : Host.Outcome State Fault Refusal := .next (s.breakDetected ch)

/-- BREAK_CLEARED (R62). -/
def execBreakCleared (ch : Chan) (s : State) : Host.Outcome State Fault Refusal := .next (s.breakCleared ch)

/-- LINK_LOSS_EXPIRY (R68). -/
def execLinkLossExpiry (ch : Chan) (s : State) : Host.Outcome State Fault Refusal := .next (s.linkLossExpires ch)

/-- TRANSMIT_COMPLETION (R74). -/
def execTransmitCompletion (ch : Chan) (s : State) : Host.Outcome State Fault Refusal := .next (s.transmitCompletes ch)

end Sys2Proof.Machine
end

