-- ==== Sys2Proof/Machine/Records.lean ====
section
/-! DEFINITION. Record capture after the trip: the hand-off of a snapshot (R144, R151), the completion of the copy (R150), the
close of the cause window (R133, R134) and the completion of the record (R152); what a host read finds that falls with these events
(R131, R159); and RECORD_COPY_COMPLETION. -/

namespace Sys2Proof.Machine

/-- RCU writes its post count into the header (R150, R151). -/
def State.writePostCount (s : State) (n : Fin 4) : State :=
  { s with xm := s.xm.write (slotStateOffset n + 14) (wordN s.rcu.postCount) }

/-- The copy completes (R150): header and pre-trigger snapshots stand in the slot, the post count as it stands is written. -/
def State.completeCopy (s : State) : State :=
  match s.rcu.capture, s.rcu.copy with
  | some n, some j =>
    State.writePostCount { s with xm := s.xm.writeAll (j.cells n), rcu := { s.rcu with copy := none } } n
  | _, _ => s

/-- RCU places a snapshot into the history ring (R144). -/
def State.placeSnapshot (s : State) (x : Snapshot) : State :=
  let place := (x.number + 65535) % 65536 % Config.ringPlaces
  { s with rcu := { s.rcu with
      ring := (place, x) :: s.rcu.ring.filter (fun e => e.1 != place)
      fillCount := min (s.rcu.fillCount + 1) Config.ringPlaces
      lastHandoff := s.now } }

/-- While a capture is FILLING, the snapshot goes into place pre count + post count of the slot, the post count advances, and is
written into the header unless the copy is in flight (R151). -/
def State.appendSnapshot (s : State) (x : Snapshot) : State :=
  match s.rcu.capture with
  | none => s
  | some n =>
    let t := { s with
      xm := s.xm.writeBlock (placeOffset n (s.rcu.preCount + s.rcu.postCount)) x.words
      rcu := { s.rcu with postCount := s.rcu.postCount + 1 } }
    if t.rcu.copy.isSome then t else t.writePostCount n

/-- RCU completes the record (R152): the cause list, the cause count, READY, capture NONE, RECORD. A copy still in flight, which
its 200 µs bound rules out here, is completed first (assumption 5). -/
def State.completeRecord (s : State) : State :=
  match s.rcu.capture with
  | none => s
  | some n =>
    let t := s.completeCopy
    let m := t.xm.writeBlock (slotStateOffset n + 16) (causeListWords t.tu.causeList)
    let m := m.write (slotStateOffset n + 15) (wordN t.tu.causeList.length)
    State.notify { t with xm := m.write (slotStateOffset n) 2, rcu := { t.rcu with capture := none } } .record

/-- TU rewrites the open entry (R134): the cause count, then the word of prior state and marks with WINDOW OPEN clear. -/
def State.closeEntry (s : State) : State :=
  match s.tu.openEntry with
  | none => s
  | some i =>
    let m := s.xm.write (chronicleOffset i + 4) (wordN s.tu.causeList.length)
    { s with xm := m.write (chronicleOffset i + 7) (m.read (chronicleOffset i + 7) &&& 0x7FFF#16) }

/-- The window closes (R134): the entry is rewritten, the list goes to RCU, the open entry is none. -/
def State.closeWindow (s : State) : State :=
  let t := State.completeRecord (State.closeEntry { s with tu := { s.tu with window := none } })
  { t with tu := { t.tu with openEntry := none } }

/-- TU counts one computation of an OPEN window, and closes it at 24 (R133). -/
def State.countWindow (s : State) : State :=
  match s.tu.window with
  | none => s
  | some n =>
    if Config.windowPeriods ≤ n + 1 then s.closeWindow
    else { s with tu := { s.tu with window := some (n + 1) } }

/-- The snapshot hand-off (R35, R144, R151, R133): a new number, the ring, the record, the window. -/
def State.handOff (s : State) : State :=
  let t := { s with tru := { s.tru with snapNumber := (s.tru.snapNumber + 1) % 65536 } }
  ((t.placeSnapshot t.snapshot).appendSnapshot t.snapshot).countWindow

/-! ### Reads that fall with an event (R131, R159) -/

/-- The stages of a trip's writes: the state word of the slot taken, if one is, and then the words of the entry, one by one (R129 steps
3 and 6, R131, R147). -/
def tripOrder (slot : Option (Fin 4)) (i : Fin 32) : List (List Nat) :=
  (slot.map slotStateOffset).toList :: entryOrder.map fun k => [chronicleOffset i + k]

/-- The stages of an append to slot n at place p: the snapshot's words, and then the post count, but for a copy in flight, which
writes it at its completion (R151). -/
def appendOrder (n : Fin 4) (p : Nat) (copying : Bool) : List (List Nat) :=
  [(List.range 16).map (placeOffset n p + ·), if copying then [] else [slotStateOffset n + 14]]

/-- The stages of a window's close: the cause count and the marks of the entry (R134), and then, of a capture, the list places one by
one, the cause count, and READY last (R152). -/
def closeOrder (capture : Option (Fin 4)) (i : Fin 32) : List (List Nat) :=
  [[chronicleOffset i + 4], [chronicleOffset i + 7]] ++
  match capture with
  | none => []
  | some n =>
    (List.range 8).map (fun j => [slotStateOffset n + 16 + 2 * j, slotStateOffset n + 17 + 2 * j]) ++
      [[slotStateOffset n + 15], [slotStateOffset n]]

/-- The words of exchange memory that the event from s to t writes in a stated order, stage by stage: those of a trip, an append and
a close. Any other event writes one word, or the words of an operation, whose stages are State.stages. -/
def State.eventOrder (s t : State) : List (List Nat) :=
  (if s.rc.drive ≠ .tripped ∧ t.rc.drive = .tripped then tripOrder s.chooseSlot s.tu.nextIndex else []) ++
  (match s.rcu.capture with
  | some n =>
    if t.rcu.postCount = s.rcu.postCount + 1 then
      appendOrder n (s.rcu.preCount + s.rcu.postCount) s.rcu.copy.isSome
    else []
  | none => []) ++
  (match s.tu.openEntry, t.tu.openEntry with
  | some i, none => if t.rc.drive = .tripped then closeOrder s.rcu.capture i else []
  | _, _ => [])

/-- The stages of the event from s to t, with the words it leaves. -/
def State.eventStages (s t : State) : List (List (Nat × Word)) :=
  (s.eventOrder t).map fun g => g.map fun a => (a, t.xm.read a)

/-- What a host read finds that falls with the event from s to t, k stages of which have been written whole and of the next the words
that p names, while the operations in flight have come as far as p (R131, R159; assumption 28). -/
def State.hostReadDuring (s t : State) (p : Progress) (k : Nat) (address : Addr) : Word :=
  State.hostRead { s with xm := (s.memoryAt p).writeAll (writtenStages p.words (s.eventStages t) k) } address

/-- RECORD_COPY_COMPLETION (R150). -/
def execRecordCopyCompletion (s : State) : Host.Outcome State Fault Refusal := .next s.completeCopy

end Sys2Proof.Machine
end

