-- ==== Sys2Proof/Machine/Torque.lean ====
section
/-! DEFINITION. The computation of the torque reference unit (R19 to R36), and TRU_PERIOD_EXPIRY. -/

namespace Sys2Proof.Machine

/-! ### Demand and phase (R20 to R22) -/

/-- A computation that finds the sequence unchanged (R21, R22): the count, the phase, Tdem 0 on entry to ZEROING. -/
def TorqueUnit.demandUnchanged (t : TorqueUnit) : TorqueUnit :=
  let n := satInc t.unchanged
  match t.phase with
  | .fresh =>
    if t.sd + t.hs ≤ n then { t with unchanged := n, phase := .zeroing, tdem := 0 }
    else if t.sd ≤ n then { t with unchanged := n, phase := .hold }
    else { t with unchanged := n }
  | .hold =>
    if t.sd + t.hs ≤ n then { t with unchanged := n, phase := .zeroing, tdem := 0 } else { t with unchanged := n }
  | .zeroing => { t with unchanged := n }

/-- The demand phase machine over the sequence and TD read (R20, R21): the first computation takes the sequence and counts as
unchanged. -/
def TorqueUnit.demand (t : TorqueUnit) (seq : Nat) (td : Int) : TorqueUnit :=
  match t.lastSeq with
  | none => TorqueUnit.demandUnchanged { t with lastSeq := some seq }
  | some q =>
    if seq = q then t.demandUnchanged
    else { t with phase := .fresh, unchanged := 0, lastSeq := some seq, tdem := td }

/-- An entry into staleness: a move out of FRESH (R21). -/
def staleEntry (before after : DemandPhase) : Bool := before == .fresh && after != .fresh

/-- The demand read and the demand phase (R20 to R22): STALE and the demand-stale entries counter at an entry into staleness. -/
def State.readDemand (s : State) : State :=
  let t := s.tru.demand (s.xm.read 0).toNat (s.xm.read 1).toInt
  let stale := staleEntry s.tru.phase t.phase
  State.notifyIf
    { s with tru := { t with staleEntries := if stale then t.staleEntries.inc else t.staleEntries } } stale .stale

/-! ### Limits (R23 to R26) -/

/-- The envelope value at v (R24). -/
def envelopeValue : List (Nat × Nat) → Nat → Int
  | [], _ => 0
  | [(_, l)], _ => l
  | (s0, l0) :: (s1, l1) :: rest, v =>
    if v ≤ s0 then l0
    else if v < s1 then (l0 : Int) + (((l1 : Int) - l0) * ((v : Int) - s0)) / ((s1 : Int) - s0)
    else envelopeValue ((s1, l1) :: rest) v

/-- The positive base limit of a channel: Lba in STARTING, the envelope value at |speed| otherwise (R23). -/
def State.positiveBase (s : State) (ch : Chan) : Int :=
  if s.rc.drive = .starting then (s.tru.lba.get ch : Int) else envelopeValue s.tru.envelope s.pt.speedMag

/-- A base limit capped by Iavail, multiplied by D while derate is ESTABLISHED, and 0 for an isolated channel (R25, R26). -/
def State.effectiveLimit (s : State) (ch : Chan) (base : Int) : Int :=
  let capped := min base ((s.link.get ch).iavail : Int)
  let derated := if s.vw.derate = .none then capped else capped * (s.vw.d : Int) / 4096
  if s.rc.isolated.get ch then 0 else derated

/-- LimA and LimB (R23 to R26). -/
def State.positiveLimits (s : State) : Pair Int := Pair.build fun ch => s.effectiveLimit ch (s.positiveBase ch)

/-- LnegA and LnegB (R23, R25, R26). -/
def State.holdbackLimits (s : State) : Pair Int :=
  Pair.build fun ch => s.effectiveLimit ch (s.tru.lnegCfg.get ch : Int)

/-! ### Target, ramp, split and redistribution (R27 to R31) -/

/-- PosTot and NegTot (R27). -/
def Pair.total (p : Pair Int) : Int := p.a + p.b

/-- The target and the ramp of a state: the demand clamped to the totals, or 0 (R27, R28). -/
def TorqueUnit.target (t : TorqueUnit) (drive : DriveState) (pos neg : Int) : Int :=
  match drive with
  | .starting | .running => clamp t.tdem (-neg) pos
  | .stopping | .stopped | .tripped => 0

/-- The ramp R: the stop ramp in STOPPING, the run ramp otherwise (R28). -/
def TorqueUnit.ramp (t : TorqueUnit) (drive : DriveState) : Int :=
  if drive = .stopping then t.stopRamp else t.runRamp

/-- The next Tcmd (R28): toward the target by at most the ramp, then within the totals; 0 in STOPPED and TRIPPED (R31). -/
def TorqueUnit.nextTcmd (t : TorqueUnit) (drive : DriveState) (pos neg : Int) : Int :=
  if drive.live then
    clamp (t.tcmd + clamp (t.target drive pos neg - t.tcmd) (-(t.ramp drive)) (t.ramp drive)) (-neg) pos
  else 0

/-- The share split: IrefA = floor((Tcmd * S + 2048) / 4096), IrefB the rest (R29). -/
def shareSplit (tcmd : Int) (share : Nat) : Pair Int :=
  let a := (tcmd * (share : Int) + 2048) / 4096
  ⟨a, tcmd - a⟩

/-- Checks 1 and 2: the excess of A beyond its limits moves to B (R30). -/
def limitA (p : Pair Int) (lim lneg : Int) : Pair Int :=
  if lim < p.a then ⟨lim, p.b + (p.a - lim)⟩
  else if p.a < -lneg then ⟨-lneg, p.b + (p.a + lneg)⟩
  else p

/-- Checks 3 and 4: the excess of B beyond its limits moves to A (R30). -/
def limitB (p : Pair Int) (lim lneg : Int) : Pair Int :=
  if lim < p.b then ⟨p.a + (p.b - lim), lim⟩
  else if p.b < -lneg then ⟨p.a + (p.b + lneg), -lneg⟩
  else p

/-- The current references: split, then redistribution, channel A first (R29, R30). -/
def references (tcmd : Int) (share : Nat) (lim lneg : Pair Int) : Pair Int :=
  limitB (limitA (shareSplit tcmd share) lim.a lneg.a) lim.b lneg.b

/-- The limits, Tcmd and the references of a computation replace the previous ones as a whole (R19). -/
def State.computeTorque (s : State) : State :=
  let lim := s.positiveLimits
  let lneg := s.holdbackLimits
  let tcmd := s.tru.nextTcmd s.rc.drive lim.total lneg.total
  { s with tru := { s.tru with lim := lim, lneg := lneg, tcmd := tcmd, iref := references tcmd s.tru.share lim lneg } }

/-! ### Watches (R32 to R34) -/

/-- The measured total M (R32, R36). -/
def State.measuredTotal (s : State) : Int := s.link.a.imeas + s.link.b.imeas

/-- The excess condition (R32). -/
def State.excessCondition (s : State) : Bool :=
  let m := s.measuredTotal
  if 0 ≤ m then decide (s.tru.lim.total + s.tru.margin < m) else decide (s.tru.lneg.total + s.tru.margin < -m)

/-- E, how far the two pinions depart from their references in opposite senses (R33). -/
def State.imbalance (s : State) : Int :=
  (s.link.a.imeas - s.tru.iref.a) - (s.link.b.imeas - s.tru.iref.b)

/-- The imbalance condition, evaluated only while neither channel is isolated (R33). -/
def State.imbalanceCondition (s : State) : Bool :=
  !s.rc.isolated.a && !s.rc.isolated.b && decide (s.tru.imbThreshold < s.imbalance.natAbs)

/-- The watches' counts, evaluated in STARTING, RUNNING and STOPPING only (R32 to R34). -/
def State.countWatches (s : State) : State :=
  if s.rc.drive.live then
    { s with tru := { s.tru with
        excessCount := if s.excessCondition then s.tru.excessCount + 1 else 0
        imbCount := if s.imbalanceCondition then s.tru.imbCount + 1 else 0 } }
  else s

/-- TORQUE EXCESS is found: the condition holds and the count has reached Pte (R32). -/
def State.excessFound (s : State) : Bool :=
  s.rc.drive.live && s.excessCondition && decide (s.tru.pte ≤ s.tru.excessCount)

/-- PINION IMBALANCE is found (R33). -/
def State.imbalanceFound (s : State) : Bool :=
  s.rc.drive.live && s.imbalanceCondition && decide (s.tru.pim ≤ s.tru.imbCount)

/-! ### The computation (R19) -/

/-- The sector fold, in RUNNING only (R36). -/
def State.sectorFold (s : State) : State := if s.rc.drive = .running then s.foldTorque s.measuredTotal else s

/-- The computation's stages in order: demand and phase, limits to redistribution, the stop-hold condition (R10), the watches,
the snapshot hand-off and the sector fold, and last the report of the causes found (R19, R34). -/
def State.compute (s : State) : State :=
  let t := s.readDemand.computeTorque.evalStopHold.countWatches
  let u := t.handOff.sectorFold
  (u.reportIf t.excessFound .torqueExcess).reportIf t.imbalanceFound .pinionImbalance

/-- The TRU period timer expires (R19): it restarts at once with the period in force, and the computation is made. -/
def State.truExpires (s : State) : State :=
  match s.tru.timer with
  | none => s
  | some d =>
    let t := s.reach d
    State.compute { t with tru := { t.tru with timer := some (t.now + t.tru.period) } }

/-- TRU_PERIOD_EXPIRY (R19). -/
def execTruPeriodExpiry (s : State) : Host.Outcome State Fault Refusal := .next s.truExpires

end Sys2Proof.Machine
end

