-- ==== Sys2Proof/Machine/Reports.lean ====
section
/-! DEFINITION. The report and notice unit: transfers of the counters (R178), reports (R175, R176), and their commands. -/

namespace Sys2Proof.Machine

/-- The ten live counters as the blocks hold them (10.1, 10.3). -/
def State.liveCounts (s : State) : Counts :=
  { aCheck := s.link.a.checkErrors, aMissed := s.link.a.missed, aDup := s.link.a.duplicates
    bCheck := s.link.b.checkErrors, bMissed := s.link.b.missed, bDup := s.link.b.duplicates
    pCheck := s.vw.checkErrors, pMissed := s.vw.missed, pGaps := s.vw.gaps
    stale := s.tru.staleEntries }

/-- The live counters at 0 with their marks clear (R178). -/
def State.zeroLiveCounts (s : State) : State :=
  { s with
    link := s.link.map fun l => { l with checkErrors := {}, missed := {}, duplicates := {} }
    vw := { s.vw with checkErrors := {}, missed := {}, gaps := {} }
    tru := { s.tru with staleEntries := {} } }

/-- A taken value added to a transferred count, saturating; the mark is set when the addition saturates or the taken value
carried it (R178; assumption 12). -/
def Counter.merge (held taken : Counter) : Counter :=
  let c := held.add taken.count
  { c with sat := c.sat || taken.sat }

/-- The taken values added to the transferred counts, counter by counter (R178). -/
def Counts.merge (h t : Counts) : Counts :=
  { aCheck := h.aCheck.merge t.aCheck, aMissed := h.aMissed.merge t.aMissed, aDup := h.aDup.merge t.aDup
    bCheck := h.bCheck.merge t.bCheck, bMissed := h.bMissed.merge t.bMissed, bDup := h.bDup.merge t.bDup
    pCheck := h.pCheck.merge t.pCheck, pMissed := h.pMissed.merge t.pMissed, pGaps := h.pGaps.merge t.pGaps
    stale := h.stale.merge t.stale }

/-- A transfer (R178): the live counters are taken and zeroed; they replace the transferred counts when a report has taken
those, and are added to them otherwise; the transfer number advances. -/
def State.transfer (s : State) : State :=
  let t := s.zeroLiveCounts
  { t with rn := { t.rn with
      transferred := if s.rn.taken then s.liveCounts else s.rn.transferred.merge s.liveCounts
      transferNumber := (s.rn.transferNumber + 1) % 65536
      taken := false } }

/-- The writing of a report begins (R176): the number advances, the counts section is taken, the counts mode with it
(assumption 26). -/
def ReportUnit.beginReport (r : ReportUnit) (values : List Word) : ReportUnit :=
  let n := (r.reportNumber + 1) % 65536
  { r with reportNumber := n, inFlight := some (reportWords n values r), taken := true }

/-- A report is requested (R176): its values are taken, and its writing begins at once or waits, replacing one that waits. DESIGN
CHOICE (assumption 27): R67, R83 and R101 have the report show the receive states and the tracking state as they are when it is
written; the model takes them at the request, as R176 and R177 say. -/
def State.requestReport (s : State) : State :=
  match s.rn.inFlight with
  | none => { s with rn := s.rn.beginReport s.reportValues }
  | some _ => { s with rn := { s.rn with waiting := some s.reportValues } }

/-- The writing of a report completes (R176): the block stands in exchange memory, REPORT is raised, and a report waiting
begins. -/
def State.completeReport (s : State) : State :=
  match s.rn.inFlight with
  | none => s
  | some ws =>
    let t := State.notify
      { s with xm := s.xm.writeBlock 0x0010 ws, rn := { s.rn with inFlight := none, waiting := none } } .report
    match s.rn.waiting with
    | none => t
    | some values => { t with rn := t.rn.beginReport values }

/-- The report timer expires (R175): it restarts with the interval in force; in AUTO mode the counters are transferred; a
report is requested. -/
def State.reportExpires (s : State) : State :=
  match s.rn.timer with
  | none => s
  | some d =>
    let t := s.reach d
    let u := { t with rn := { t.rn with timer := some (t.now + t.rn.interval * 1000) } }
    (if u.rn.manual then u else u.transfer).requestReport

/-- REPORT_TIMER_EXPIRY (R175). -/
def execReportTimerExpiry (s : State) : Host.Outcome State Fault Refusal := .next s.reportExpires

/-- REPORT_COMPLETION (R176). -/
def execReportCompletion (s : State) : Host.Outcome State Fault Refusal := .next s.completeReport

end Sys2Proof.Machine
end

