-- ==== Sys2Proof/Machine/External.lean ====
section
/-! DEFINITION. The external trip input and its filter (R135, R190). -/

namespace Sys2Proof.Machine

/-- The raw level of EXTRIP becomes a level (R135): at a change the stability timer restarts with its full 2 ms; during INIT the
pin moves and the filter does not run. -/
def State.externalChanges (s : State) (level : Bool) : State :=
  if s.tu.extRaw = level then s
  else
    { s with tu := { s.tu with
        extRaw := level
        extTimer := if s.startUp = .ready then some (s.now + Config.extripStable) else s.tu.extTimer } }

/-- The stability timer expires (R135): the filtered level takes the raw level, and a change to ASSERTED reports EXTERNAL
TRIP. -/
def State.externalExpires (s : State) : State :=
  match s.tu.extTimer with
  | none => s
  | some d =>
    let t := s.reach d
    let u := { t with tu := { t.tu with extTimer := none, extFiltered := t.tu.extRaw } }
    u.reportIf (t.tu.extRaw && !t.tu.extFiltered) .externalTrip

/-- EXTRIP_INPUT_CHANGE (R135, R190). -/
def execExtripInputChange (level : Bool) (s : State) : Host.Outcome State Fault Refusal := .next (s.externalChanges level)

/-- EXTRIP_FILTER_EXPIRY (R135). -/
def execExtripFilterExpiry (s : State) : Host.Outcome State Fault Refusal := .next s.externalExpires

end Sys2Proof.Machine
end

