-- ==== Sys2Proof/Machine/SettingOrders.lean ====
section
/-! DEFINITION. The orders that set values: SET LOOP (R54), SET LIMITS (R56), LOAD ENVELOPE (R40), SET SHARE (R38), SET REFERENCE
(R39), SET SENSOR (R123), SET WATCH (R124), SET POSITION (R97, R17), SET REPORT (R184). An owner answers the state and the
result; a refused order answers the state it was given. -/

namespace Sys2Proof.Machine

/-- The channels that A, B or PAIR names; none for another target (R54, R56, R174). -/
def targetChannels : Target → Option (List Chan)
  | .chan ch => some [ch]
  | .pair => some [.a, .b]
  | .sensor _ | .all | .noTarget => none

/-- The sensor channels that a sensor channel or ALL names; none for another target (R123, R174). -/
def targetSensors : Target → Option (List (Fin 8))
  | .sensor n => some [n]
  | .all => some sensorNumbers
  | .chan _ | .pair | .noTarget => none

/-- An owner's answer: refused REFUSED_RANGE with the number of the first check that fails, or DONE with its effect. -/
def rangeChecked (checks : List Bool) (s : State) (effect : State → State) : State × OrderResult :=
  match firstBad checks with
  | some d => (s, refusedRange d)
  | none => (effect s, resDone)

/-- RC sets the LOOP flag of a channel (R4). -/
def ConfigFlags.setLoop (f : ConfigFlags) : Chan → ConfigFlags
  | .a => { f with loopA := true }
  | .b => { f with loopB := true }

/-- RC sets the LIMITS flag of a channel (R4). -/
def ConfigFlags.setLimits (f : ConfigFlags) : Chan → ConfigFlags
  | .a => { f with limitsA := true }
  | .b => { f with limitsB := true }

/-- RC changes its flags. -/
def State.modFlags (s : State) (f : ConfigFlags → ConfigFlags) : State := { s with rc := { s.rc with flags := f s.rc.flags } }

/-! ### SET LOOP (R54) -/

/-- SET LOOP on one channel: Kp, Ki, Vlim and the LOOP flag; Acc is kept (R54, R55). -/
def setLoopOn (kp ki vlim : Nat) (s : State) (ch : Chan) : State :=
  (s.modReg ch fun r => { r with kp := kp, ki := ki, vlim := vlim }).modFlags fun f => f.setLoop ch

/-- The owner of SET LOOP (R54): target first, then Vlim. -/
def ownSetLoop (o : Order) (s : State) : State × OrderResult :=
  match targetChannels o.target with
  | none => (s, refusedRange 0)
  | some chans =>
    rangeChecked [true, true, inRange (o.p 2) 0 16384] s fun t => chans.foldl (setLoopOn (o.p 0) (o.p 1) (o.p 2)) t

/-! ### SET LIMITS (R56) -/

/-- SET LIMITS on one channel: Ioc, Lba, Lneg_cfg and the LIMITS flag (R56). -/
def setLimitsOn (ioc lba lneg : Nat) (s : State) (ch : Chan) : State :=
  let t := s.modReg ch fun r => { r with ioc := ioc }
  State.modFlags
    { t with tru := { t.tru with lba := t.tru.lba.set ch lba, lnegCfg := t.tru.lnegCfg.set ch lneg } }
    fun f => f.setLimits ch

/-- The owner of SET LIMITS (R56): the margin and Pte are one shared pair, replaced whatever the target. -/
def ownSetLimits (o : Order) (s : State) : State × OrderResult :=
  match targetChannels o.target with
  | none => (s, refusedRange 0)
  | some chans =>
    rangeChecked
      [inRange (o.p 0) 0 32767, inRange (o.p 1) 0 32767, inRange (o.p 2) 0 32767, inRange (o.p 3) 0 32767,
       inRange (o.p 4) 1 32767] s
      fun t => chans.foldl (setLimitsOn (o.p 0) (o.p 1) (o.p 2))
        { t with tru := { t.tru with margin := o.p 3, pte := o.p 4 } }

/-! ### LOAD ENVELOPE (R40) -/

/-- The first n breakpoints of the order: each s then L (9.5). -/
def envelopePoints (o : Order) (n : Nat) : List (Nat × Nat) := (List.range n).map fun i => (o.p (1 + 2 * i), o.p (2 + 2 * i))

/-- The index, from i on, of the first breakpoint at which a check fails: a value above 32767, or an s not above the one before
(R40). -/
def badPoint : Nat → Option Nat → List (Nat × Nat) → Option Nat
  | _, _, [] => none
  | i, prev, (x, l) :: rest =>
    if 32767 < x ∨ 32767 < l then some i
    else match prev with
      | some q => if x ≤ q then some i else badPoint (i + 1) (some x) rest
      | none => badPoint (i + 1) (some x) rest

/-- The owner of LOAD ENVELOPE (R40). -/
def ownLoadEnvelope (o : Order) (s : State) : State × OrderResult :=
  if !inRange (o.p 0) 2 8 then (s, refusedTable 8)
  else
    let points := envelopePoints o (o.p 0)
    match badPoint 0 none points with
    | some i => (s, refusedTable i)
    | none =>
      (State.modFlags { s with tru := { s.tru with envelope := points } } fun f => { f with envelope := true }, resDone)

/-! ### SET SHARE, SET REFERENCE (R38, R39) -/

/-- The owner of SET SHARE (R38). -/
def ownSetShare (o : Order) (s : State) : State × OrderResult :=
  rangeChecked [inRange (o.p 0) 0 4096, inRange (o.p 1) 0 32767, inRange (o.p 2) 1 10000] s fun t =>
    { t with tru := { t.tru with share := o.p 0, imbThreshold := o.p 1, pim := o.p 2 } }

/-- The owner of SET REFERENCE (R39): the period a multiple of 250 µs. -/
def ownSetReference (o : Order) (s : State) : State × OrderResult :=
  rangeChecked
    [inRange (o.p 0) 250 4000 && o.p 0 % 250 == 0, inRange (o.p 1) 1 8192, inRange (o.p 2) 1 8192,
     inRange (o.p 3) 1 1000, inRange (o.p 4) 0 10000] s fun t =>
    { t with tru := { t.tru with
        period := o.p 0, runRamp := o.p 1, stopRamp := o.p 2, sd := o.p 3, hs := o.p 4 } }

/-! ### SET SENSOR (R123) -/

/-- The group of the group parameter: 0 is A and 1 is B (R123). -/
def groupOf (n : Nat) : Chan := if n = 0 then .a else .b

/-- A channel after SET SENSOR's enable value acts (R123): enabled anew, kept, disabled, or left disabled. -/
def SensorChannel.setEnable (c : SensorChannel) (enable : Bool) : SensorChannel :=
  match c.enabled, enable with
  | false, true =>
    { c.newBlock.zeroCounters with level := .quiet, stuck := 0, lastRaw := none, lastRms := 0, lastPeak := 0 }
  | true, false =>
    { c.newBlock.zeroCounters with level := .disabled, injection := none, lastRms := 0, lastPeak := 0 }
  | true, true => c
  | false, false => c

/-- The latched results of a channel are dropped (R110, R123). -/
def Evaluation.drop (e : Evaluation) (i : Fin 8) : Evaluation :=
  { e with latched := e.latched.map fun l => if l.channel = i then { l with dropped := true } else l }

/-- SET SENSOR on one channel: the values, the enable, a latched result dropped at disabling, and the change of level state
reported (R117, R123). -/
def setSensorOn (o : Order) (s : State) (i : Fin 8) : State :=
  let old := s.vw.channels.get i
  let enable := o.p 0 == 1
  let new := { old.setEnable enable with
    group := groupOf (o.p 1), alertLevel := o.p 2, dangerLevel := o.p 3, hysteresis := o.p 4, tripEnable := o.p 5 == 1 }
  let t := { s with vw := { s.vw with
    channels := s.vw.channels.set i new
    evaluation := if old.enabled && !enable then s.vw.evaluation.map (·.drop i) else s.vw.evaluation } }
  if old.enabled = enable then t else t.notifyLevel false

/-- A target channel is trip-enabled and in FAULT after the order (R123). -/
def trippableFault (s : State) (targets : List (Fin 8)) : Bool :=
  targets.any fun i => (s.vw.channels.get i).tripEnable && (s.vw.channels.get i).level == .fault

/-- The owner of SET SENSOR (R123): checked once for all its channels (R174), BLIND when a target is left trip-enabled in FAULT
while the drive is live (R119). -/
def ownSetSensor (o : Order) (s : State) : State × OrderResult :=
  match targetSensors o.target with
  | none => (s, refusedRange 0)
  | some targets =>
    rangeChecked
      [inRange (o.p 0) 0 1, inRange (o.p 1) 0 1, inRange (o.p 2) 0 32767,
       inRange (o.p 3) 0 32767 && decide (o.p 2 < o.p 3), inRange (o.p 4) 0 32767, inRange (o.p 5) 0 1] s
      fun t =>
        let u := targets.foldl (setSensorOn o) t
        u.blindIf (trippableFault u targets)

/-! ### SET WATCH (R124) -/

/-- The owner of SET WATCH (R124): the nine values, and every enabled channel's block in progress discarded. -/
def ownSetWatch (o : Order) (s : State) : State × OrderResult :=
  rangeChecked
    [o.p 0 == 256 || o.p 0 == 512 || o.p 0 == 1024 || o.p 0 == 2048, inRange (o.p 1) 1 1000, inRange (o.p 2) 1 1000,
     inRange (o.p 3) 1 1000, inRange (o.p 4) 1 65535, inRange (o.p 5) 1 65535, inRange (o.p 6) 0 4096,
     inRange (o.p 7) 16 1024, inRange (o.p 8) 100 2000] s fun t =>
    { t with vw := { t.vw with
        n := o.p 0, pa := o.p 1, pcl := o.p 2, pd := o.p 3, ld := o.p 4, lr := o.p 5, d := o.p 6, k := o.p 7, ts := o.p 8
        channels := t.vw.channels.map fun c => if c.enabled then c.newBlock else c } }

/-! ### SET POSITION (R97, R17) -/

/-- PT at an accepted SET POSITION (R97): the scale, Pc and the sector 0, UNCERTAIN, wrapped clear, a new table with start kind
RESTART; direction, Nw and speed kept. -/
def PositionTracker.setScale (p : PositionTracker) (counts tol ws kspd t : Nat) : PositionTracker :=
  PositionTracker.newTable
    { p with p := counts, tol := tol, ws := ws, kspd := kspd, pc := 0, sector := 0, tracking := .uncertain, wrapped := false }
    .restart t

/-- The owner of SET POSITION (R97): Tol up to floor(P / 8) with the P of this order; the three values of run control (R17). -/
def ownSetPosition (o : Order) (s : State) : State × OrderResult :=
  rangeChecked
    [inRange (o.p 0) 64 65535, inRange (o.p 1) 0 (o.p 0 / 8), inRange (o.p 2) 10 1000, inRange (o.p 3) 1 65535,
     inRange (o.p 4) 1 4096, inRange (o.p 5) 1 60, inRange (o.p 6) 100 60000] s fun t =>
    State.modFlags
      { t with
        pt := t.pt.setScale (o.p 0) (o.p 1) (o.p 2) (o.p 3) t.now
        rc := { t.rc with creep := o.p 4, wba := o.p 5, stopHoldTime := o.p 6 } }
      fun f => { f with position := true }

/-! ### SET REPORT (R184) -/

/-- The owner of SET REPORT (R184, R78). -/
def ownSetReport (o : Order) (s : State) : State × OrderResult :=
  rangeChecked
    [inRange (o.p 0) 100 10000, inRange (o.p 1) 0 1, inRange (o.p 2) 0 1, inRange (o.p 3) 0 1, inRange (o.p 4) 200 5000] s
    fun t =>
      { t with
        tloss := o.p 4
        rn := { t.rn with
          interval := o.p 0, manual := o.p 1 == 1, derateAny := o.p 2 == 1, levelAny := o.p 3 == 1 } }

/-- SET_LOOP (R54). -/
def execSetLoop (s : State) : Host.Outcome State Fault Refusal := .next (takeUp .setLoop ownSetLoop s)

/-- SET_LIMITS (R56). -/
def execSetLimits (s : State) : Host.Outcome State Fault Refusal := .next (takeUp .setLimits ownSetLimits s)

/-- LOAD_ENVELOPE (R40). -/
def execLoadEnvelope (s : State) : Host.Outcome State Fault Refusal := .next (takeUp .loadEnvelope ownLoadEnvelope s)

/-- SET_SHARE (R38). -/
def execSetShare (s : State) : Host.Outcome State Fault Refusal := .next (takeUp .setShare ownSetShare s)

/-- SET_REFERENCE (R39). -/
def execSetReference (s : State) : Host.Outcome State Fault Refusal := .next (takeUp .setReference ownSetReference s)

/-- SET_SENSOR (R123). -/
def execSetSensor (s : State) : Host.Outcome State Fault Refusal := .next (takeUp .setSensor ownSetSensor s)

/-- SET_WATCH (R124). -/
def execSetWatch (s : State) : Host.Outcome State Fault Refusal := .next (takeUp .setWatch ownSetWatch s)

/-- SET_POSITION (R97). -/
def execSetPosition (s : State) : Host.Outcome State Fault Refusal := .next (takeUp .setPosition ownSetPosition s)

/-- SET_REPORT (R184). -/
def execSetReport (s : State) : Host.Outcome State Fault Refusal := .next (takeUp .setReport ownSetReport s)

end Sys2Proof.Machine
end

