-- ==== Sys2Proof/Machine/ActionOrders.lean ====
section
/-! DEFINITION. The orders that act: RUN (R5, R6), STOP (R9), TRIP RESET (R138 to R140), ISOLATE (R13), RESTORE (R15), CLEAR
DERATE (R121), TEST TRIP (R137), INJECT LEVEL (R125), TRANSFER COUNTS (R179). -/

namespace Sys2Proof.Machine

/-! ### RUN (R5, R6) -/

/-- The flags required for RUN, in the order of their numbers: each number, whether it is required, whether it is set (R4). -/
def RunControl.requiredFlags (r : RunControl) : List (Nat × Bool × Bool) :=
  [(1, !r.isolated.a, r.flags.loopA), (2, !r.isolated.b, r.flags.loopB), (3, !r.isolated.a, r.flags.limitsA),
   (4, !r.isolated.b, r.flags.limitsB), (5, true, r.flags.envelope), (6, true, r.flags.position)]

/-- The lowest-numbered required flag that is clear (R5 check 2). -/
def RunControl.missingFlag (r : RunControl) : Option Nat :=
  (r.requiredFlags.find? fun f => f.2.1 && !f.2.2).map (·.1)

/-- A link is fit for RUN: UP, READY set, FAULT clear, no break held (R5 check 3). -/
def Link.fit (l : Link) : Bool := l.rx == .up && l.ready && !l.fault && !l.breakHeld

/-- The first channel in service, A before B, whose link is not fit (R5 check 3). -/
def State.unfitLink (s : State) : Option Chan :=
  [Chan.a, Chan.b].find? fun ch => !s.rc.isolated.get ch && !(s.link.get ch).fit

/-- Some level injection is active (R5 check 4). -/
def VibrationWatch.injecting (v : VibrationWatch) : Bool := v.channels.toList.any fun c => c.injection.isSome

/-- The checks of R5 in order: the refusal of the first that fails. -/
def State.runRefusal (s : State) : Option OrderResult :=
  if s.rc.drive ≠ .stopped then some (refusedState s.rc.drive.code)
  else match s.rc.missingFlag with
    | some n => some (refusedConfig n)
    | none => match s.unfitLink with
      | some ch => some (refusedLink (chanIndex ch))
      | none => if s.vw.injecting then some (refusedState 6) else none

/-- The entry into ACTIVE clears Acc (R44). -/
def Regulator.activate (r : Regulator) : Regulator := { r with active := true, acc := 0 }

/-- RUN accepted (R6): STARTING, PERMIT asserted, the break-away timer started, the stop-hold timer stopped, STATE; the
regulators of the channels in service ACTIVE (R44); VW's BLIND test (R119). -/
def State.startRun (s : State) : State :=
  let t := State.notify
    { s with
      rc := { s.rc with
        drive := .starting, permit := true, breakAway := some (s.now + s.rc.wba * 1000000), stopHold := none }
      reg := Pair.build fun ch => if s.rc.isolated.get ch then s.reg.get ch else (s.reg.get ch).activate } .state
  t.blindIf t.vw.blindCondition

/-- The owner of RUN (R5, R6). -/
def ownRun (_ : Order) (s : State) : State × OrderResult :=
  match s.runRefusal with
  | some r => (s, r)
  | none => (s.startRun, resDone)

/-! ### STOP (R9) -/

/-- The owner of STOP (R9). -/
def ownStop (_ : Order) (s : State) : State × OrderResult :=
  match s.rc.drive with
  | .starting | .running => (s.enterStopping, resDone)
  | .stopping => (s, resDone)
  | .stopped | .tripped => (s, refusedState s.rc.drive.code)

/-! ### TRIP RESET (R138 to R140) -/

/-- A latched cause is active as the values stand (R139). -/
def State.causeActive (s : State) : Cause → Bool
  | .urgentStop | .torqueExcess | .pinionImbalance | .stall | .test => false
  | .externalTrip => s.tu.extFiltered
  | .overcurrent ch => (s.reg.get ch).overcurrent (s.link.get ch).imeas
  | .linkLoss ch => (s.link.get ch).rx != .up && !s.rc.isolated.get ch
  | .converterFault ch _ =>
    !s.rc.isolated.get ch && ((s.link.get ch).fault || !(s.link.get ch).ready || (s.link.get ch).breakHeld)
  | .vibrationDanger n => (s.vw.channels.get n).level == .danger

/-- The code of the lowest-numbered active latched cause (R138 check 3). -/
def State.lowestActive (s : State) : Option Nat :=
  ((s.tu.latched.filter s.causeActive).map Cause.code).min?

/-- The owner of TRIP RESET (R138 to R140, R12). -/
def ownTripReset (_ : Order) (s : State) : State × OrderResult :=
  if s.rc.drive ≠ .tripped then (s, refusedState s.rc.drive.code)
  else match s.tu.window with
    | some n => (s, refusedWindow n)
    | none => match s.lowestActive with
      | some c => (s, refusedActive c)
      | none => (State.leaveTripped { s with tu := { s.tu with latched := [], firstOut := none } }, resDone)

/-! ### ISOLATE, RESTORE (R13, R15, R16) -/

/-- RC sets or clears a channel's isolation flag; a change of A's switches the position source (R13, R15, R16). -/
def State.setIsolation (s : State) (ch : Chan) (v : Bool) : State :=
  let t := { s with rc := { s.rc with isolated := s.rc.isolated.set ch v } }
  match ch with
  | .a => { t with pt := t.pt.switchSource (if v then .b else .a) }
  | .b => t

/-- The owner of ISOLATE (R13): target, drive state, the other channel in service. -/
def ownIsolate (o : Order) (s : State) : State × OrderResult :=
  match o.target with
  | .chan ch =>
    if s.rc.drive ≠ .stopped then (s, refusedState s.rc.drive.code)
    else if s.rc.isolated.get (otherChan ch) then (s, refusedState 7)
    else if s.rc.isolated.get ch then (s, resDone)
    else (s.setIsolation ch true, resDone)
  | .sensor _ | .all | .pair | .noTarget => (s, refusedRange 0)

/-- The owner of RESTORE (R15). -/
def ownRestore (o : Order) (s : State) : State × OrderResult :=
  match o.target with
  | .chan ch =>
    if s.rc.drive ≠ .stopped then (s, refusedState s.rc.drive.code)
    else if s.rc.isolated.get ch then (s.setIsolation ch false, resDone)
    else (s, resDone)
  | .sensor _ | .all | .pair | .noTarget => (s, refusedRange 0)

/-! ### CLEAR DERATE (R121) -/

/-- The lowest enabled channel that is not QUIET (R121). -/
def VibrationWatch.loudChannel (v : VibrationWatch) : Option (Fin 8) :=
  sensorNumbers.find? fun i => (v.channels.get i).enabled && (v.channels.get i).level != .quiet

/-- The owner of CLEAR DERATE (R121). -/
def ownClearDerate (_ : Order) (s : State) : State × OrderResult :=
  if s.vw.derate = .none then (s, resDone)
  else if s.vw.rx ≠ .up then (s, refusedActive 8)
  else match s.vw.loudChannel with
    | some i => (s, refusedActive i.val)
    | none => ((s.setDerate .none).zeroQuiet, resDone)

/-! ### TEST TRIP, INJECT LEVEL, TRANSFER COUNTS (R137, R125, R179) -/

/-- The owner of TEST TRIP (R137). -/
def ownTestTrip (_ : Order) (s : State) : State × OrderResult :=
  if s.rc.drive = .stopped then (s.report .test, resDone) else (s, refusedState s.rc.drive.code)

/-- The owner of INJECT LEVEL (R125). -/
def ownInjectLevel (o : Order) (s : State) : State × OrderResult :=
  match o.target with
  | .sensor i =>
    if s.rc.drive ≠ .stopped then (s, refusedState s.rc.drive.code)
    else if !(s.vw.channels.get i).enabled then (s, refusedState 8)
    else rangeChecked [inRange (o.p 0) 0 32767, inRange (o.p 1) 1 255] s fun t =>
      { t with vw := { t.vw with
          channels := t.vw.channels.set i { t.vw.channels.get i with injection := some ⟨o.p 0, o.p 1⟩ } } }
  | .chan _ | .all | .pair | .noTarget => (s, refusedRange 0)

/-- The owner of TRANSFER COUNTS (R179). -/
def ownTransferCounts (_ : Order) (s : State) : State × OrderResult := (s.transfer.requestReport, resDone)

/-- RUN (R5). -/
def execRun (s : State) : Host.Outcome State Fault Refusal := .next (takeUp .run ownRun s)

/-- STOP (R9). -/
def execStop (s : State) : Host.Outcome State Fault Refusal := .next (takeUp .stop ownStop s)

/-- TRIP_RESET (R138). -/
def execTripReset (s : State) : Host.Outcome State Fault Refusal := .next (takeUp .tripReset ownTripReset s)

/-- ISOLATE (R13). -/
def execIsolate (s : State) : Host.Outcome State Fault Refusal := .next (takeUp .isolate ownIsolate s)

/-- RESTORE (R15). -/
def execRestore (s : State) : Host.Outcome State Fault Refusal := .next (takeUp .restore ownRestore s)

/-- CLEAR_DERATE (R121). -/
def execClearDerate (s : State) : Host.Outcome State Fault Refusal := .next (takeUp .clearDerate ownClearDerate s)

/-- TEST_TRIP (R137). -/
def execTestTrip (s : State) : Host.Outcome State Fault Refusal := .next (takeUp .testTrip ownTestTrip s)

/-- INJECT_LEVEL (R125). -/
def execInjectLevel (s : State) : Host.Outcome State Fault Refusal := .next (takeUp .injectLevel ownInjectLevel s)

/-- TRANSFER_COUNTS (R179). -/
def execTransferCounts (s : State) : Host.Outcome State Fault Refusal := .next (takeUp .transferCounts ownTransferCounts s)

end Sys2Proof.Machine
end

