-- ==== Sys2Proof/Machine/Dispatch.lean ====
section
/-! DEFINITION. One arm for each command: a direct call of its meaning. -/

namespace Sys2Proof.Machine

def exec (i : Instr) (s : State) : Host.Outcome State Fault Refusal :=
  match i with
  | .powerOn => Sys2Proof.Machine.execPowerOn s
  | .resetPin => Sys2Proof.Machine.execResetPin s
  | .initEnd => Sys2Proof.Machine.execInitEnd s
  | .chainStartWrite offset => Sys2Proof.Machine.execChainStartWrite offset s
  | .urgentStop control => Sys2Proof.Machine.execUrgentStop control s
  | .abandonChain control => Sys2Proof.Machine.execAbandonChain control s
  | .deviceReset control => Sys2Proof.Machine.execDeviceReset control s
  | .noticeWrite value => Sys2Proof.Machine.execNoticeWrite value s
  | .noticeMaskWrite value => Sys2Proof.Machine.execNoticeMaskWrite value s
  | .registerWriteIgnored address value => Sys2Proof.Machine.execRegisterWriteIgnored address value s
  | .hostMemoryWrite address value => Sys2Proof.Machine.execHostMemoryWrite address value s
  | .slotRelease slot value => Sys2Proof.Machine.execSlotRelease slot value s
  | .orderFormatFault => Sys2Proof.Machine.execOrderFormatFault s
  | .setLoop => Sys2Proof.Machine.execSetLoop s
  | .setLimits => Sys2Proof.Machine.execSetLimits s
  | .loadEnvelope => Sys2Proof.Machine.execLoadEnvelope s
  | .setShare => Sys2Proof.Machine.execSetShare s
  | .setReference => Sys2Proof.Machine.execSetReference s
  | .setSensor => Sys2Proof.Machine.execSetSensor s
  | .setWatch => Sys2Proof.Machine.execSetWatch s
  | .setPosition => Sys2Proof.Machine.execSetPosition s
  | .setReport => Sys2Proof.Machine.execSetReport s
  | .run => Sys2Proof.Machine.execRun s
  | .stop => Sys2Proof.Machine.execStop s
  | .tripReset => Sys2Proof.Machine.execTripReset s
  | .isolate => Sys2Proof.Machine.execIsolate s
  | .restore => Sys2Proof.Machine.execRestore s
  | .clearDerate => Sys2Proof.Machine.execClearDerate s
  | .testTrip => Sys2Proof.Machine.execTestTrip s
  | .injectLevel => Sys2Proof.Machine.execInjectLevel s
  | .transferCounts => Sys2Proof.Machine.execTransferCounts s
  | .truPeriodExpiry => Sys2Proof.Machine.execTruPeriodExpiry s
  | .breakAwayExpiry => Sys2Proof.Machine.execBreakAwayExpiry s
  | .stopHoldExpiry => Sys2Proof.Machine.execStopHoldExpiry s
  | .speedWindowExpiry => Sys2Proof.Machine.execSpeedWindowExpiry s
  | .quadratureChange ch combination => Sys2Proof.Machine.execQuadratureChange ch combination s
  | .markerArrival => Sys2Proof.Machine.execMarkerArrival s
  | .publicationCompletion => Sys2Proof.Machine.execPublicationCompletion s
  | .linkFrameCompletion ch frame => Sys2Proof.Machine.execLinkFrameCompletion ch frame s
  | .recordCopyCompletion => Sys2Proof.Machine.execRecordCopyCompletion s
  | .receiverSynchronised receiver => Sys2Proof.Machine.execReceiverSynchronised receiver s
  | .linkBreakDetected ch => Sys2Proof.Machine.execLinkBreakDetected ch s
  | .breakCleared ch => Sys2Proof.Machine.execBreakCleared ch s
  | .linkLossExpiry ch => Sys2Proof.Machine.execLinkLossExpiry ch s
  | .transmitCompletion ch => Sys2Proof.Machine.execTransmitCompletion ch s
  | .sampleFrameCompletion frame => Sys2Proof.Machine.execSampleFrameCompletion frame s
  | .portLossExpiry => Sys2Proof.Machine.execPortLossExpiry s
  | .evaluationEnd => Sys2Proof.Machine.execEvaluationEnd s
  | .extripInputChange level => Sys2Proof.Machine.execExtripInputChange level s
  | .extripFilterExpiry => Sys2Proof.Machine.execExtripFilterExpiry s
  | .reportTimerExpiry => Sys2Proof.Machine.execReportTimerExpiry s
  | .reportCompletion => Sys2Proof.Machine.execReportCompletion s
  | .resetPinReturnsHigh => Sys2Proof.Machine.execResetPinReturnsHigh s

end Sys2Proof.Machine
end

