-- ==== Sys2Proof/Machine/Step.lean ====
section
/-! DEFINITION. One step: the command at the front of the queue, or one tick of the time base. -/

namespace Sys2Proof.Machine

/-- One tick of the internal time base, 1 µs (00, "Time"; assumption 3). -/
def State.tick (s : State) : State := { s with now := s.now + 1 }

/-- A step takes the command at the front of the queue and runs it with the rest of the queue; on an empty queue nothing
happens but the passing of 1 µs (assumption 3). -/
def step (s : State) : Host.Outcome State Fault Refusal :=
  match s.pending with
  | [] => .next s.tick
  | i :: rest => exec i { s with pending := rest }

/-- The state with the command that a word spells put at the front of its queue; unchanged where the word spells none. -/
def State.withFetchWord (s : State) (nbits w : Nat) : State :=
  match decodeTableWord nbits w with
  | some i => { s with pending := i :: s.pending }
  | none => s

end Sys2Proof.Machine
end

