-- ==== Sys2Proof/Safety.lean ====
section
/-! DEFINITION. What a safe run of the part is, in the terms the statements use: the invariants the spec gives each block, and
what a take-up, a first cause and a warm reset leave behind. -/

namespace Sys2Proof.Machine

/-! ### Invariants -/

/-- Run control: PERMIT is asserted, and its pin high, exactly in STARTING, RUNNING and STOPPING (R2, R190); a regulator is ACTIVE
exactly then and while its channel is not isolated (R43), and a BLOCKED one holds Acc 0 and last Vcmd 0 (R45); the break-away timer
runs exactly in STARTING (R7) and the stop-hold timer only in STOPPING (R10); not both channels are isolated (R13); the position
source is B exactly while A is isolated (R16). -/
def State.RunInv (s : State) : Prop :=
  s.rc.permit = s.rc.drive.live ∧ s.permitPin = s.rc.drive.live ∧
  (∀ ch, (s.reg.get ch).active = (s.rc.drive.live && !s.rc.isolated.get ch)) ∧
  (∀ ch, (s.reg.get ch).active = false → (s.reg.get ch).acc = 0 ∧ (s.reg.get ch).lastVcmd = 0) ∧
  (s.rc.breakAway.isSome = true ↔ s.rc.drive = .starting) ∧
  (s.rc.stopHold.isSome = true → s.rc.drive = .stopping) ∧
  ¬(s.rc.isolated.a = true ∧ s.rc.isolated.b = true) ∧
  s.pt.source = (if s.rc.isolated.a then .b else .a)

/-- The trip unit and the capture: the latched set is not empty exactly while the drive is TRIPPED (R141), holds the first-out and
no pair twice; the cause list holds 1 to 8 causes while the window is OPEN, the first-out first, no pair twice, each latched
(R132); the window is OPEN only in TRIPPED, with a count of 0 to 23 and the open entry just below the next index (R129, R133,
R134); the next index is the trip count modulo 32 (R130); a capture is in progress only while the window is OPEN, with a post
count equal to the window's count (R133, R151), and a copy only during a capture. -/
def State.TripInv (s : State) : Prop :=
  (s.tu.latched = [] ↔ s.rc.drive ≠ .tripped) ∧
  (s.tu.firstOut.isSome = true ↔ s.rc.drive = .tripped) ∧
  (∀ c, s.tu.firstOut = some c → c ∈ s.tu.latched) ∧
  s.tu.latched.Nodup ∧ s.tu.causeList.Nodup ∧ s.tu.causeList.length ≤ 8 ∧
  (∀ n, s.tu.window = some n →
    n ≤ 23 ∧ s.rc.drive = .tripped ∧ s.tu.causeList.head? = s.tu.firstOut ∧ (∀ c ∈ s.tu.causeList, c ∈ s.tu.latched)) ∧
  s.tu.openEntry.isSome = s.tu.window.isSome ∧
  (∀ i, s.tu.openEntry = some i → i + 1 = s.tu.nextIndex) ∧
  s.tu.tripCount < 4294967296 ∧ s.tu.nextIndex.val = s.tu.tripCount % 32 ∧
  (s.rcu.capture.isSome = true → s.tu.window = some s.rcu.postCount) ∧
  (s.rcu.copy.isSome = true → s.rcu.capture.isSome = true)

/-- The torque reference unit, over run control's invariant: the limits are not negative and each reference lies within its
channel's limits (R30); the references sum to Tcmd, and both are 0 when it is; Tcmd and both persistence counts are 0 outside
STARTING, RUNNING and STOPPING (R31, R34); while the stop-hold timer runs Tcmd is 0 (R10); the breakpoints' speeds ascend
(R24). -/
def State.TorqueInv (s : State) : Prop :=
  s.RunInv ∧
  (∀ ch, 0 ≤ s.tru.lim.get ch ∧ 0 ≤ s.tru.lneg.get ch ∧
    -(s.tru.lneg.get ch) ≤ s.tru.iref.get ch ∧ s.tru.iref.get ch ≤ s.tru.lim.get ch) ∧
  s.tru.iref.a + s.tru.iref.b = s.tru.tcmd ∧
  (s.tru.tcmd = 0 → s.tru.iref = ⟨0, 0⟩) ∧
  (s.rc.drive.live = false → s.tru.tcmd = 0 ∧ s.tru.excessCount = 0 ∧ s.tru.imbCount = 0) ∧
  (s.rc.stopHold.isSome = true → s.tru.tcmd = 0) ∧
  s.tru.envelope.Pairwise (fun x y => x.1 < y.1)

/-- Derate: established with reason BLIND while the drive is STARTING, RUNNING or STOPPING and the port is LOST or a trip-enabled
channel is in FAULT (R119); the quiet time is 0 while derate is NONE (R120). -/
def State.BlindInv (s : State) : Prop :=
  (s.rc.drive.live = true → s.vw.blindCondition = true → s.vw.derate = .blind) ∧
  (s.vw.derate = .none → s.vw.quietTime = 0)

/-- A working entry: a count of at most 65535, full only there, and peaks of at most 32767 (R86 to R88). -/
def WorkEntry.Ok (e : WorkEntry) : Prop :=
  e.count ≤ 65535 ∧ (e.countFull = true → e.count = 65535) ∧ e.vpeakA ≤ 32767 ∧ e.vpeakB ≤ 32767

/-- The position tracker: the settings in their ranges, Pc below P and the sector floor(Pc * 32 / P) (R81), the speed within
±32767 (R95), the net count within a signed 32-bit value (R81), 32 working entries (R86), and the table tainted while the
tracking state is UNCERTAIN (R83, R86). -/
def State.PositionInv (s : State) : Prop :=
  64 ≤ s.pt.p ∧ s.pt.p ≤ 65535 ∧ s.pt.tol ≤ s.pt.p / 8 ∧
  s.pt.pc < s.pt.p ∧ s.pt.sector = s.pt.pc * 32 / s.pt.p ∧
  (-32767 ≤ s.pt.speed ∧ s.pt.speed ≤ 32767) ∧
  (-2147483648 ≤ s.pt.netCount ∧ s.pt.netCount ≤ 2147483647) ∧
  s.pt.table.length = 32 ∧ (∀ e ∈ s.pt.table, e.Ok) ∧
  (s.pt.tracking = .uncertain → s.pt.taint = true)

/-- A sensor channel, over blocks of n samples: an enabled one has a block in progress of fewer than n samples; a disabled one has
an empty block, counters 0, no injection and results 0 (R123); one in FAULT has counters 0 (R115); peaks, results and injected
values of at most 32767. -/
def SensorChannel.Ok (c : SensorChannel) (n : Nat) : Prop :=
  c.count < n ∧
  (c.level = .disabled → c.count = 0 ∧ c.injection = none ∧ c.lastRms = 0 ∧ c.lastPeak = 0) ∧
  (c.level = .disabled ∨ c.level = .fault → c.up = 0 ∧ c.dn = 0 ∧ c.low = 0 ∧ c.below = 0) ∧
  c.peak ≤ 32767 ∧ c.lastRms ≤ 32767 ∧ c.lastPeak ≤ 32767 ∧
  (∀ i, c.injection = some i → i.value ≤ 32767 ∧ 1 ≤ i.count ∧ i.count ≤ 255)

/-- The vibration watch: at most three frames wait, and only while the unit is EVALUATING (R103); the good run is at most 4, and
the loss timer of an UP port runs (R101); N is one of its four values (R124); the channels are well kept; a latched result that
has not been dropped belongs to an enabled channel (R110), with a peak of at most 32767. -/
def State.WatchInv (s : State) : Prop :=
  s.vw.fifo.length ≤ 3 ∧ (s.vw.evaluation = none → s.vw.fifo = []) ∧
  s.vw.goodRun ≤ 4 ∧ (s.vw.rx = .up → s.vw.lossTimer.isSome = true) ∧ (∀ q, s.vw.lastSeq = some q → q ≤ 255) ∧
  (s.vw.n = 256 ∨ s.vw.n = 512 ∨ s.vw.n = 1024 ∨ s.vw.n = 2048) ∧
  (∀ i, (s.vw.channels.get i).Ok s.vw.n) ∧
  (∀ e, s.vw.evaluation = some e → ∀ l ∈ e.latched,
    l.peak ≤ 32767 ∧ (l.dropped = false → (s.vw.channels.get l.channel).level ≠ .disabled))

/-- A command as the transmitter may hold it: Vcmd within ±16384, and 0 in a BLOCK frame (R50, R73). -/
def Command.Ok (c : Command) : Prop := -16384 ≤ c.vcmd ∧ c.vcmd ≤ 16384 ∧ (c.run = false → c.vcmd = 0)

/-- A link with its regulator: the good run is at most 4, and the loss timer of an UP link runs (R67, R68); a sequence is a byte; a
held break leaves the receiver unsynchronised (R62); a frame waits only behind one being sent (R75), whose six bytes are in the
stage (R74); Iavail is at most 32767 (R63); Vlim is at most 16384, the last Vcmd within ±16384 (3.1). -/
def linkOk (l : Link) (r : Regulator) : Prop :=
  l.goodRun ≤ 4 ∧ (l.rx = .up → l.lossTimer.isSome = true) ∧ (∀ q, l.lastSeq = some q → q ≤ 255) ∧
  (l.breakHeld = true → l.synced = false) ∧
  (l.holding.isSome = true → l.sending.isSome = true) ∧
  (∀ f, l.sending = some f → f.bytes.length = 6) ∧ (∀ c, l.holding = some c → c.Ok) ∧
  l.cmdSeq < 256 ∧ l.iavail ≤ 32767 ∧
  r.vlim ≤ 16384 ∧ -16384 ≤ r.lastVcmd ∧ r.lastVcmd ≤ 16384

/-- Both links. -/
def State.LinkInv (s : State) : Prop := ∀ ch, linkOk (s.link.get ch) (s.reg.get ch)

/-- The sizes of what is written into exchange memory: 32 entries in each sector table, 240 words in a report and 47 values in one
that waits (11.5), 127 header words and at most pre count snapshots in a copy, a pre count of at most 96 (R149), a post count of at
most 23 while a capture is in progress (R151); a walk's next offset lies in 0x0400 to 0x1000 (9.4), and the order index in 0 to 65,
or to 64 while the walker is WALKING (R168, 11.6). -/
def State.LayoutInv (s : State) : Prop :=
  s.pt.table.length = 32 ∧
  (∀ p, s.pt.inFlight = some p → p.rev.table.length = 32) ∧
  (∀ r, s.pt.waiting = some r → r.table.length = 32) ∧
  (∀ ws, s.rn.inFlight = some ws → ws.length = 240) ∧
  (∀ vs, s.rn.waiting = some vs → vs.length = 47) ∧
  (∀ j, s.rcu.copy = some j → j.header.length = 127 ∧ j.pre.length ≤ s.rcu.preCount) ∧
  s.rcu.preCount ≤ 96 ∧
  (0x0400 ≤ s.cw.nextOffset ∧ s.cw.nextOffset ≤ 0x1000) ∧
  s.cw.orderIndex ≤ 65 ∧ (s.cw.walking = true → s.cw.orderIndex ≤ 64)

/-- The record slots, over the invariants of the trip unit and of the sizes: a slot reads FILLING only while it is the slot of the
capture in progress (R146). -/
def State.SlotInv (s : State) : Prop :=
  s.TripInv ∧ s.LayoutInv ∧ ∀ n, s.slotWord n = 1 → s.rcu.capture = some n

/-- A ring holds the snapshots of the newest number and of the numbers back from it without a gap, as many as the fill count says,
each in the place of its number, and every other place is empty (R144). -/
def RingHolds (number fill : Nat) (ring : List (Nat × Snapshot)) : Prop :=
  number < 65536 ∧ fill ≤ 256 ∧
  ∀ i < 256,
    if i < fill then ∃ x, ringAt ring ((number + 65535 - i) % 256) = some x ∧ x.number = (number + 65536 - i) % 65536
    else ringAt ring ((number + 65535 - i) % 256) = none

/-- The history ring holds the newest snapshots (R144). -/
def State.RingInv (s : State) : Prop := RingHolds s.tru.snapNumber s.rcu.fillCount s.rcu.ring

/-- INIT: the drive is STOPPED with PERMIT deasserted, no timer runs, no receiver is synchronised, nothing is sent, written,
walked or evaluated, no notice is set or marked, and the pins PERMIT and INT are low and high (R161, R162, R183, R190). -/
def State.InitInv (s : State) : Prop :=
  s.startUp ≠ .ready →
    s.rc.drive = .stopped ∧ s.rc.permit = false ∧ s.rc.breakAway = none ∧ s.rc.stopHold = none ∧
    s.tru.timer = none ∧ s.pt.timer = none ∧ s.rn.timer = none ∧ s.tu.extTimer = none ∧
    (∀ ch, (s.link.get ch).synced = false ∧ (s.link.get ch).lossTimer = none ∧ (s.link.get ch).sending = none) ∧
    s.vw.synced = false ∧ s.vw.lossTimer = none ∧ s.vw.evaluation = none ∧
    s.pt.inFlight = none ∧ s.rn.inFlight = none ∧ s.rcu.capture = none ∧ s.cw.walking = false ∧
    s.rn.notice = 0 ∧ s.rn.mask = 0 ∧ s.permitPin = false ∧ s.intPin = true

/-! ### Take-ups -/

/-- The header word of the record at the next offset (R167). -/
def State.header (s : State) : Word := s.xm.read s.cw.nextOffset

/-- The target field of that header, bits 9-6 (11.4). -/
def State.targetCode (s : State) : Nat := s.header.toNat / 64 % 16

/-- The end mark of that header, bit 15 (11.4). -/
def State.endMark (s : State) : Bool := s.header.getLsbD 15

/-- Parameter i of that record, counted from 0: word 2 + i, unsigned (R167, R187). -/
def State.par (s : State) (i : Nat) : Nat := (s.xm.read (s.cw.nextOffset + 2 + i)).toNat

/-- The walker is WALKING, and the record at the next offset passes the five checks of R168 and is of kind k. -/
abbrev State.RecordReady (s : State) (k : OrderKind) : Prop :=
  s.cw.walking = true ∧ s.cw.orderIndex < 64 ∧ 0x0400 ≤ s.cw.nextOffset ∧ s.cw.nextOffset + k.length ≤ 0x1000 ∧
  s.header.toNat % 32 = k.code ∧ s.header.toNat / 1024 % 32 = k.length

/-- What a take-up at s of an order of kind k leaves when its owner has acted and left the part in u: DONE with detail 0 in the
result word, every other word as in u, the order index one on; at the end mark the walk ENDED with CHAIN, otherwise the next
offset behind the record (R167, R169, R170). -/
def RecordDone (k : OrderKind) (s u t : State) : Prop :=
  (∀ a < Config.xmWords, t.xm.read a = if a = s.cw.nextOffset + 1 then 0x0100#16 else u.xm.read a) ∧
  t = { u with
    xm := t.xm
    cw := { s.cw with
      orderIndex := s.cw.orderIndex + 1
      walking := !s.endMark
      outcome := if s.endMark then .ended else s.cw.outcome
      nextOffset := if s.endMark then s.cw.nextOffset else s.cw.nextOffset + k.length }
    rn := { u.rn with notice := if s.endMark then u.rn.notice ||| 1#10 else u.rn.notice } }

/-- What a take-up at s of an order leaves when its owner refuses it with a result word: that word, and the walk REFUSED with
CHAIN; nothing else changes (R169, R170). -/
def RecordRefused (result : Word) (s t : State) : Prop :=
  (∀ a < Config.xmWords, t.xm.read a = if a = s.cw.nextOffset + 1 then result else s.xm.read a) ∧
  t = { s with
    xm := t.xm
    cw := { s.cw with orderIndex := s.cw.orderIndex + 1, walking := false, outcome := .refused }
    rn := { s.rn with notice := s.rn.notice ||| 1#10 } }

/-! ### Trips -/

/-- The check of some bytes (R64): a register of 16 bits, 0xFFFF at the start; for each bit, the most significant of a byte first, it is
shifted up one place, and exclusive-ored with 0x1021 when the bit shifted out differs from the incoming one. -/
def checkOf (bytes : List Byte) : Word :=
  (bytes.flatMap fun b => (List.range 8).map fun i => b.getLsbD (7 - i)).foldl
    (fun register incoming => register <<< 1 ^^^ if register.getLsbD 15 ≠ incoming then 0x1021#16 else 0) 0xFFFF#16

/-- The six bytes of a command frame (R73, R186, 11.2): the command sequence; the mode, 0x00 for BLOCK and 0x01 for RUN; Vcmd, its low
byte first; the check of these four, its high byte first. -/
def commandFrame (c : Command) (seq : Nat) : List Byte :=
  let v := BitVec.ofInt 16 c.vcmd
  let mode : Byte := if c.run then 0x01 else 0x00
  let check := checkOf [BitVec.ofNat 8 seq, mode, v.extractLsb' 0 8, v.extractLsb' 8 8]
  [BitVec.ofNat 8 seq, mode, v.extractLsb' 0 8, v.extractLsb' 8 8, check.extractLsb' 8 8, check.extractLsb' 0 8]

/-- A frame has been handed to a transmitter at a time: it starts at once, taking the command sequence, when the stage is IDLE,
and takes the holding slot otherwise (R73, R75, R76). Its bytes are commandFrame's. -/
def FrameHanded (c : Command) (l l' : Link) (now : Nat) : Prop :=
  match l.sending with
  | none => l' = { l with sending := some ⟨commandFrame c l.cmdSeq, now + 8⟩, cmdSeq := (l.cmdSeq + 1) % 256 }
  | some _ => l' = { l with holding := some c }

/-- The lowest-numbered slot whose state word reads EMPTY or RELEASED, if there is one (R147). -/
def LowestFreeSlot (m : Memory) (slot : Option (Fin 4)) : Prop :=
  match slot with
  | some n =>
    (m.read (slotStateOffset n) = 0 ∨ m.read (slotStateOffset n) = 3) ∧
    ∀ j < n, m.read (slotStateOffset j) ≠ 0 ∧ m.read (slotStateOffset j) ≠ 3
  | none => ∀ j : Fin 4, m.read (slotStateOffset j) ≠ 0 ∧ m.read (slotStateOffset j) ≠ 3

/-- The eight words of the chronicle entry of a trip (R131, 11.5): the trip number low word first, code, detail, cause count 1,
slot or 0xFFFF, snapshot number, and the prior state with WINDOW OPEN and, without a slot, NO SLOT. -/
def entryWord (number : Nat) (c : Cause) (slot : Option (Fin 4)) (snap : Nat) (prior : DriveState) : Nat → Word
  | 0 => wordN number
  | 1 => wordN (number / 65536)
  | 2 => wordN c.code
  | 3 => wordN c.detail
  | 4 => 1
  | 5 => match slot with
    | some n => wordN n.val
    | none => 0xFFFF#16
  | 6 => wordN snap
  | _ => wordN (prior.code + 16384 * bit slot.isNone + 32768)

/-- What a copy that a trip of a cause begins at s is to write (R149, R150, 11.5): header words 1 to 127 with the trip's number,
cause, snapshot number, offset and prior state and the values of every block as they stand, and the newest snapshots of the ring, at
most 96, oldest first. That the receive states and the tracking state are those of the trip is the model's choice (assumption 27). -/
def CopyHoldsTrip (c : Cause) (s : State) (job : CopyJob) : Prop :=
  let number := (s.tu.tripCount + 1) % 4294967296
  let pre := min 96 s.rcu.fillCount
  let old := fun i : Nat => ringAt s.rcu.ring ((s.tru.snapNumber + 65536 - pre + i) % 256)
  let word := fun k : Nat => job.header[k - 1]?
  job.header.length = 127 ∧
  word 1 = some (wordN number) ∧ word 2 = some (wordN (number / 65536)) ∧ word 3 = some (wordN c.code) ∧
  word 4 = some (wordN c.detail) ∧ word 5 = some (wordN s.tru.snapNumber) ∧
  word 6 = some (wordN (s.now - s.rcu.lastHandoff)) ∧ word 7 = some (wordN s.rc.drive.code) ∧
  word 8 = some (wordI s.pt.speed) ∧
  word 9 = some (wordN (s.pt.sector + if s.pt.tracking = .uncertain then 32768 else 0)) ∧
  word 10 = some (wordN s.vw.derate.code) ∧
  word 11 = some (wordN (s.link.a.rx.code + 4 * s.link.b.rx.code + 16 * s.vw.rx.code)) ∧
  word 12 = some (wordN ((if s.rc.isolated.a then 1 else 0) + if s.rc.isolated.b then 2 else 0)) ∧
  word 13 = some (wordN pre) ∧ word 14 = some 0 ∧ word 15 = some 1 ∧ word 16 = some (wordN c.code) ∧
  word 17 = some (wordN c.detail) ∧ (∀ k, 18 ≤ k → k ≤ 31 → word k = some 0) ∧
  (∀ i : Fin 8, word (32 + i.val) = some (wordN (s.vw.channels.get i).level.code) ∧
    word (40 + i.val) = some (wordN (s.vw.channels.get i).lastRms) ∧
    word (48 + i.val) = some (wordN (s.vw.channels.get i).lastPeak)) ∧
  (∀ k, 56 ≤ k → k ≤ 127 → word k = some 0) ∧
  ((∀ i < pre, (old i).isSome = true) → job.pre.length = pre ∧ ∀ i < pre, job.pre[i]? = old i)

/-- What a first cause leaves (R11, R31, R34, R45, R76, R129, R131, R147 to R149): the drive TRIPPED with PERMIT deasserted and
RC's timers stopped; Tcmd, the references and the watch counts 0; both regulators BLOCKED; a BLOCK frame handed on both links;
the cause alone latched, first-out and listed, the window OPEN at 0, the trip count and the next index one on; the chronicle
entry; FILLING in the slot taken, which RCU captures with pre count min(96, fill count) and a copy of the trip in flight, or no
change of RCU without a free slot; TRIP; nothing else. -/
def FirstCauseLeaves (c : Cause) (s t : State) : Prop :=
  ∃ slot : Option (Fin 4), LowestFreeSlot s.xm slot ∧
  (∀ ch, FrameHanded ⟨false, 0⟩ (s.link.get ch) (t.link.get ch) s.now) ∧
  (∀ a < Config.xmWords, t.xm.read a =
    if chronicleOffset s.tu.nextIndex ≤ a ∧ a < chronicleOffset s.tu.nextIndex + 8 then
      entryWord ((s.tu.tripCount + 1) % 4294967296) c slot s.tru.snapNumber s.rc.drive (a - chronicleOffset s.tu.nextIndex)
    else if slot.map slotStateOffset = some a then 1
    else s.xm.read a) ∧
  (slot.isSome = true → ∃ job, t.rcu.copy = some job ∧ CopyHoldsTrip c s job) ∧
  t = { s with
    xm := t.xm
    link := t.link
    rc := { s.rc with drive := .tripped, permit := false, breakAway := none, stopHold := none }
    tru := { s.tru with tcmd := 0, iref := ⟨0, 0⟩, excessCount := 0, imbCount := 0 }
    reg := s.reg.map fun r => { r with active := false, acc := 0, lastVcmd := 0 }
    tu := { s.tu with
      latched := [c], firstOut := some c, window := some 0, causeList := [c], openEntry := some s.tu.nextIndex
      nextIndex := s.tu.nextIndex + 1, tripCount := (s.tu.tripCount + 1) % 4294967296 }
    rcu := match slot with
      | some n =>
        { s.rcu with
          capture := some n, preCount := min 96 s.rcu.fillCount, postCount := 0, copy := t.rcu.copy }
      | none => s.rcu
    rn := { s.rn with notice := s.rn.notice ||| 2#10 } }

/-- What a further cause leaves (R132): the cause is latched once, and listed once while the window is OPEN and the list holds
fewer than 8; nothing else. -/
def FurtherCauseLeaves (c : Cause) (s t : State) : Prop :=
  t = { s with tu := { s.tu with
    latched := if c ∈ s.tu.latched then s.tu.latched else s.tu.latched ++ [c]
    causeList :=
      if s.tu.window ≠ none ∧ c ∉ s.tu.causeList ∧ s.tu.causeList.length < 8 then s.tu.causeList ++ [c]
      else s.tu.causeList } }

/-- What a report of a cause leaves: a first cause outside TRIPPED, a further cause in it (R128). -/
def CauseReported (c : Cause) (s t : State) : Prop :=
  if s.rc.drive = .tripped then FurtherCauseLeaves c s t else FirstCauseLeaves c s t

/-- What the reports of several causes in one event leave, the first of them taken first (R128). -/
def CausesReported : List Cause → State → State → Prop
  | [], s, t => t = s
  | c :: rest, s, t => ∃ u, CauseReported c s u ∧ CausesReported rest u t

/-- The commands that report each cause, with the drive states in which they do (07, 7.1). -/
def RaisedBy (c : Instr) (s : State) : Cause → Prop
  | .urgentStop => ∃ w, c = .urgentStop w
  | .externalTrip => c = .extripFilterExpiry
  | .overcurrent ch => ∃ frame, c = .linkFrameCompletion ch frame
  | .linkLoss ch => c = .linkLossExpiry ch
  | .converterFault ch .fault => ∃ frame, c = .linkFrameCompletion ch frame
  | .converterFault ch .readyLost => s.rc.drive.live = true ∧ ∃ frame, c = .linkFrameCompletion ch frame
  | .converterFault ch .lineBreak => c = .linkBreakDetected ch
  | .torqueExcess | .pinionImbalance => s.rc.drive.live = true ∧ c = .truPeriodExpiry
  | .stall => s.rc.drive = .starting ∧ c = .breakAwayExpiry
  | .vibrationDanger _ => s.rc.drive.live = true ∧ c = .evaluationEnd
  | .test => s.rc.drive = .stopped ∧ c = .testTrip

/-! ### Resets -/

/-- What a warm reset leaves, with the end of INIT and the pin as given (R162): every block at its reset values, but for TU's next
index and trip count and the raw EXTRIP pin; the next revolution starts now (DEDUCED, assumption 15); FILLING and the captured
slot's word become EMPTY; every other word keeps its value or, as far as an operation in flight had come in the order of its
stages, has that operation's new value (R94, R155, R185); a publication or a report that is cut has its number in its first word and
not in its last (R160; that the first word is always written is the model's reading, assumption 6). -/
def WarmResetLeaves (initEnd : Option Nat) (low : Bool) (s t : State) : Prop :=
  (∃ p : Progress, p.stage .publication = 1 ∧ p.stage .report = 1 ∧
    ∀ a < Config.xmWords, (∀ n, a ≠ slotStateOffset n) →
      t.xm.read a = (s.memoryAt p).read a ∧ (t.xm.read a = s.xm.read a ∨ (a, t.xm.read a) ∈ s.cellsInFlight)) ∧
  (s.LayoutInv →
    (∀ pub, s.pt.inFlight = some pub →
      t.xm.read 0x0300 = wordN pub.number ∧ t.xm.read 0x030F = s.xm.read 0x030F) ∧
    (∀ ws, s.rn.inFlight = some ws →
      some (t.xm.read 0x0010) = ws[0]? ∧ t.xm.read 0x00FF = s.xm.read 0x00FF)) ∧
  (∀ n, (∀ c ∈ s.cellsInFlight, c.1 ≠ slotStateOffset n) →
    t.slotWord n = if s.rcu.capture = some n ∨ s.slotWord n = 1 then 0 else s.slotWord n) ∧
  t = { State.reset with
    pending := s.pending
    now := s.now
    startUp := .initWarm
    initEnd := initEnd
    resetLow := low
    freeIndex := s.freeIndex + 1
    xm := t.xm
    pt := { State.reset.pt with startTime := s.now }
    tu := { State.reset.tu with nextIndex := s.tu.nextIndex, tripCount := s.tu.tripCount, extRaw := s.tu.extRaw } }

/-! ### Frames -/

/-- A frame of some bytes with no framing error, followed by their check, high byte first (R64, R186). -/
def goodFrame (body : List Byte) : List RxByte :=
  (body ++ [(crc16 body).extractLsb' 8 8, (crc16 body).extractLsb' 0 8]).map fun b => ⟨b, false⟩

/-- A link at the acceptance of a measure frame (R63, R65 to R67): its values, the missed frames, the loss timer and the good run,
and UP at the fourth in a row. -/
def Link.accepted (l : Link) (now tloss : Nat) (q st : Byte) (imeas : Int) (iavail : Nat) : Link :=
  { l with
    lastSeq := some q.toNat
    missed :=
      let k : Nat := match l.lastSeq with
        | some p => (((q.toNat : Int) - p - 1) % 256).toNat
        | none => 0
      ⟨min (l.missed.count + k) 65535, l.missed.sat || decide (65535 ≤ l.missed.count + k)⟩
    lossTimer := some (now + tloss)
    goodRun := min (l.goodRun + 1) 4
    rx := if l.rx ≠ .up ∧ 3 ≤ l.goodRun then .up else l.rx
    imeas := imeas
    iavail := iavail
    ready := st.getLsbD 0
    fault := st.getLsbD 1 }

/-- An ACTIVE regulator after its computation on an error e (R48 to R50): Acc held while the output pushes a limit the way the error
asks and moved by Ki * e within the bound otherwise, and Vcmd, the sum of both terms within Vlim. -/
def Regulator.answered (r : Regulator) (e : Int) : Regulator :=
  let prop := ((r.kp : Int) * e + 128) / 256
  let u0 := prop + (r.acc + 32768) / 65536
  let hold := ((r.vlim : Int) ≤ u0 ∧ 0 < e) ∨ (u0 ≤ -(r.vlim : Int) ∧ e < 0)
  let acc := if hold then r.acc
    else max (-(r.vlim : Int) * 65536) (min ((r.vlim : Int) * 65536) (r.acc + (r.ki : Int) * e))
  { r with acc := acc, lastVcmd := max (-(r.vlim : Int)) (min (r.vlim : Int) (prop + (acc + 32768) / 65536)) }

/-- A saturating counter with k added to it, marked saturated when it reaches 65535 (R77, R100). -/
def Counter.plus (c : Counter) (k : Nat) : Counter := ⟨min (c.count + k) 65535, c.sat || decide (65535 ≤ c.count + k)⟩

/-- The bias-fault flags and the eight samples of a sample frame's bytes: byte 1, and bytes 2 + 2n and 3 + 2n, the low one first
(R186). -/
def sampleOf (bytes : List Byte) : SampleFrame :=
  { bias := bytes.getD 1 0
    samples := Octet.build fun n => (bytes.getD (3 + 2 * n.val) 0 ++ bytes.getD (2 + 2 * n.val) 0).toInt }

/-- The sensor port at the acceptance of a frame of a sequence (R100, R101). -/
def VibrationWatch.accepted (v : VibrationWatch) (now seq : Nat) : VibrationWatch :=
  { v with
    lastSeq := some seq
    missed := match v.lastSeq with
      | some p => v.missed.plus (((seq : Int) - p - 1) % 256).toNat
      | none => v.missed.plus 0
    lossTimer := some (now + 4 * v.ts)
    goodRun := min (v.goodRun + 1) 4
    rx := if v.rx ≠ .up ∧ 3 ≤ v.goodRun then .up else v.rx }

/-! ### Orders -/

/-- The command that takes up an order of a kind. -/
def OrderKind.command : OrderKind → Instr
  | .setLoop => .setLoop
  | .setLimits => .setLimits
  | .loadEnvelope => .loadEnvelope
  | .setShare => .setShare
  | .setReference => .setReference
  | .setSensor => .setSensor
  | .setWatch => .setWatch
  | .setPosition => .setPosition
  | .setReport => .setReport
  | .run => .run
  | .stop => .stop
  | .tripReset => .tripReset
  | .isolate => .isolate
  | .restore => .restore
  | .clearDerate => .clearDerate
  | .testTrip => .testTrip
  | .injectLevel => .injectLevel
  | .transferCounts => .transferCounts

/-- The commands that are take-ups: the eighteen orders, and the record with a format fault (R167, R168). -/
def TakesUp (c : Instr) : Prop := (∃ k : OrderKind, c = k.command) ∨ c = .orderFormatFault

/-- The codes with which each order can be refused (9.6): 2 REFUSED_STATE, 3 REFUSED_RANGE, 4 REFUSED_TABLE, 5 REFUSED_CONFIG,
6 REFUSED_LINK, 7 REFUSED_ACTIVE, 8 REFUSED_WINDOW. -/
def refusalCodes : OrderKind → List Nat
  | .setLoop | .setLimits | .setShare | .setReference | .setSensor | .setWatch | .setPosition | .setReport => [3]
  | .loadEnvelope => [4]
  | .run => [2, 5, 6]
  | .stop | .testTrip => [2]
  | .tripReset => [2, 7, 8]
  | .isolate | .restore | .injectLevel => [2, 3]
  | .clearDerate => [7]
  | .transferCounts => []

/-- The range checks of the orders whose refusal names the first parameter out of range, in the order of the parameters, with the
ranges of R54, R56, R38, R39, R123, R124, R97 with R17, and R184; no other order has any. -/
def State.parameterChecks (s : State) : OrderKind → List Prop
  | .setLoop => [True, True, s.par 2 ≤ 16384]
  | .setLimits =>
    [s.par 0 ≤ 32767, s.par 1 ≤ 32767, s.par 2 ≤ 32767, s.par 3 ≤ 32767, 1 ≤ s.par 4 ∧ s.par 4 ≤ 32767]
  | .setShare => [s.par 0 ≤ 4096, s.par 1 ≤ 32767, 1 ≤ s.par 2 ∧ s.par 2 ≤ 10000]
  | .setReference =>
    [250 ≤ s.par 0 ∧ s.par 0 ≤ 4000 ∧ s.par 0 % 250 = 0, 1 ≤ s.par 1 ∧ s.par 1 ≤ 8192, 1 ≤ s.par 2 ∧ s.par 2 ≤ 8192,
     1 ≤ s.par 3 ∧ s.par 3 ≤ 1000, s.par 4 ≤ 10000]
  | .setSensor =>
    [s.par 0 ≤ 1, s.par 1 ≤ 1, s.par 2 ≤ 32767, s.par 3 ≤ 32767 ∧ s.par 2 < s.par 3, s.par 4 ≤ 32767, s.par 5 ≤ 1]
  | .setWatch =>
    [s.par 0 = 256 ∨ s.par 0 = 512 ∨ s.par 0 = 1024 ∨ s.par 0 = 2048, 1 ≤ s.par 1 ∧ s.par 1 ≤ 1000,
     1 ≤ s.par 2 ∧ s.par 2 ≤ 1000, 1 ≤ s.par 3 ∧ s.par 3 ≤ 1000, 1 ≤ s.par 4, 1 ≤ s.par 5, s.par 6 ≤ 4096,
     16 ≤ s.par 7 ∧ s.par 7 ≤ 1024, 100 ≤ s.par 8 ∧ s.par 8 ≤ 2000]
  | .setPosition =>
    [64 ≤ s.par 0, s.par 1 ≤ s.par 0 / 8, 10 ≤ s.par 2 ∧ s.par 2 ≤ 1000, 1 ≤ s.par 3, 1 ≤ s.par 4 ∧ s.par 4 ≤ 4096,
     1 ≤ s.par 5 ∧ s.par 5 ≤ 60, 100 ≤ s.par 6 ∧ s.par 6 ≤ 60000]
  | .setReport =>
    [100 ≤ s.par 0 ∧ s.par 0 ≤ 10000, s.par 1 ≤ 1, s.par 2 ≤ 1, s.par 3 ≤ 1, 200 ≤ s.par 4 ∧ s.par 4 ≤ 5000]
  | _ => []

/-- The targets each order takes (9.5, R174): A, B or PAIR for SET LOOP and SET LIMITS, a sensor channel or ALL for SET SENSOR, A
or B for ISOLATE and RESTORE, a sensor channel for INJECT LEVEL; any for the others. -/
def targetTaken (k : OrderKind) (code : Nat) : Prop :=
  match k with
  | .setLoop | .setLimits => 9 ≤ code ∧ code ≤ 11
  | .setSensor => code ≤ 8
  | .isolate | .restore => 9 ≤ code ∧ code ≤ 10
  | .injectLevel => code ≤ 7
  | _ => True

/-- The lengths of the eighteen kinds, kind 1 first (11.4). -/
def kindLengths : List Nat := [5, 7, 19, 5, 7, 8, 11, 9, 7, 2, 2, 2, 2, 2, 2, 2, 4, 2]

/-- The FORMAT detail of the record at the next offset: the first of the five checks of R168 that fails. -/
def State.formatDetail (s : State) (d : Nat) : Prop :=
  if 64 ≤ s.cw.orderIndex then d = 4
  else if 0x0FFF < s.cw.nextOffset then d = 3
  else if s.header.toNat % 32 = 0 ∨ 18 < s.header.toNat % 32 then d = 1
  else if kindLengths[s.header.toNat % 32 - 1]? ≠ some (s.header.toNat / 1024 % 32) then d = 2
  else 0x0FFF < s.cw.nextOffset + s.header.toNat / 1024 % 32 - 1 ∧ d = 3

/-- A latched cause is active as the values stand (R139). -/
def State.ActiveCause (s : State) : Cause → Prop
  | .externalTrip => s.tu.extFiltered = true
  | .overcurrent ch => (s.reg.get ch).ioc < (s.link.get ch).imeas.natAbs
  | .linkLoss ch => (s.link.get ch).rx ≠ .up ∧ s.rc.isolated.get ch = false
  | .converterFault ch _ =>
    s.rc.isolated.get ch = false ∧
      ((s.link.get ch).fault = true ∨ (s.link.get ch).ready = false ∨ (s.link.get ch).breakHeld = true)
  | .vibrationDanger n => (s.vw.channels.get n).level = .danger
  | .urgentStop | .torqueExcess | .pinionImbalance | .stall | .test => False

/-! ### Exchange memory while the part writes it -/

/-- What the words of an operation in flight, or of an event, read as while it writes them (R93, R131, R159, R160, R176): each reads
as before or as after, and where a word of a stage no longer reads as before, every word of an earlier stage reads as after. -/
def WrittenInOrder (old new seen : Nat → Word) (stage : Nat → Option Nat) : Prop :=
  ∀ a k, stage a = some k →
    (seen a = old a ∨ seen a = new a) ∧ (seen a ≠ old a → ∀ b j, stage b = some j → j < k → seen b = new b)

/-- The stages of a publication: 0x0300 first, the entries and the summary, 0x030F last (R93). -/
def publicationStage (a : Nat) : Option Nat :=
  if a = 0x0300 then some 0 else if 0x0200 ≤ a ∧ a ≤ 0x030E then some 1 else if a = 0x030F then some 2 else none

/-- The stages of a report: 0x0010 first, 0x00FF last (R176). -/
def reportStage (a : Nat) : Option Nat :=
  if a = 0x0010 then some 0 else if 0x0011 ≤ a ∧ a ≤ 0x00FE then some 1 else if a = 0x00FF then some 2 else none

/-- The stages of a record copy into slot n: the header, but for the post count, which its completion writes, and then the
snapshot places, the oldest first (R149, R150). -/
def copyStage (n : Fin 4) (a : Nat) : Option Nat :=
  if slotStateOffset n < a ∧ a < slotStateOffset n + 128 ∧ a ≠ slotStateOffset n + 14 then some 0
  else if slotStateOffset n + 128 ≤ a ∧ a < slotStateOffset n + 128 + 16 * 96 then
    some ((a - slotStateOffset n - 128) / 16 + 1)
  else none

/-- The stages of a trip's writes: the state word of the slot taken (R129 step 3, R147); the entry's code, detail, cause count, slot,
snapshot number, and word of prior state and marks; last the trip number, low word then high word (R131). -/
def tripStage (slot : Option (Fin 4)) (i : Fin 32) (a : Nat) : Option Nat :=
  if slot.map slotStateOffset = some a then some 0
  else if chronicleOffset i + 2 ≤ a ∧ a < chronicleOffset i + 8 then some (a - chronicleOffset i - 1)
  else if a = chronicleOffset i then some 7
  else if a = chronicleOffset i + 1 then some 8
  else none

/-- The stages of the writes at a hand-off while a slot n is FILLING: the snapshot's words at its place, and the post count unless a
copy is in flight (R151); and, when the window closes, the entry's cause count and its word of marks (R134), the list places one by
one, the cause count of the header, and READY last (R152). -/
def appendStage (n : Fin 4) (place : Nat) (copying closes : Bool) (i : Fin 32) (a : Nat) : Option Nat :=
  let base := slotStateOffset n
  if base + 128 + 16 * place ≤ a ∧ a < base + 144 + 16 * place then some 0
  else if a = base + 14 ∧ copying = false then some 1
  else if closes = false then none
  else if a = chronicleOffset i + 4 then some 2
  else if a = chronicleOffset i + 7 then some 3
  else if base + 16 ≤ a ∧ a < base + 32 then some ((a - base) / 2 - 4)
  else if a = base + 15 then some 12
  else if a = base then some 13
  else none

/-- Word k of a snapshot, counted from 0 (R145, 11.5). -/
def snapshotWord (x : Snapshot) : Nat → Word
  | 0 => wordN x.number
  | 1 => wordN (x.drive.code + 16 * x.phase.code + 64 * x.derate.code + (if x.isolated.a then 256 else 0) +
      if x.isolated.b then 512 else 0)
  | 2 => wordI x.tdem
  | 3 => wordI x.tcmd
  | 4 => wordI x.lim.a
  | 5 => wordI x.lim.b
  | 6 => wordI x.iref.a
  | 7 => wordI x.iref.b
  | 8 => wordI x.imeas.a
  | 9 => wordI x.imeas.b
  | 10 => wordI x.vcmd.a
  | 11 => wordI x.vcmd.b
  | 12 => wordI x.speed
  | 13 => wordN (x.sector + if x.tracking = .uncertain then 32768 else 0)
  | 14 => wordN x.worstRms
  | _ =>
    let two := fun i : Fin 8 => if x.levels.get i = .disabled then 0 else (x.levels.get i).code
    wordN (two 0 + 4 * two 1 + 16 * two 2 + 64 * two 3 + 256 * two 4 + 1024 * two 5 + 4096 * two 6 + 16384 * two 7)

/-! ### Sample frames -/

/-- What the taking of a sample frame by the COLLECTING unit leaves (R103, R105 to R109, R115, R119): the channels, LEVEL and DERATE,
the derate, the quiet time, the peaks of the present sector, and an evaluation of the blocks that are complete; nothing else
changes. -/
def FrameTaken (f : SampleFrame) (s t : State) : Prop :=
  let c := fun i : Fin 8 => s.vw.channels.get i
  let on := fun i : Fin 8 => (c i).level ≠ .disabled
  let x := fun i : Fin 8 => f.samples.get i
  let ac := fun i : Fin 8 => max (-32768) (min 32767 (x i - ((c i).off + 128) / 256))
  let size := fun i : Fin 8 => min (ac i).natAbs 32767
  let stuck := fun i : Fin 8 => if (c i).lastRaw = some (x i) then min ((c i).stuck + 1) s.vw.k else 0
  let bad := fun i : Fin 8 => s.vw.k ≤ stuck i ∨ f.bias.getLsbD i.val = true
  let enters := fun i : Fin 8 => on i ∧ bad i ∧ (c i).level ≠ .fault
  let full := fun i : Fin 8 => on i ∧ (c i).count + 1 = s.vw.n
  let peakOf := fun g : Chan =>
    ((sensorNumbers.filter fun i => decide (on i ∧ (c i).group = g ∧ (c i).level ≠ .fault ∧ ¬bad i)).map size).foldl max 0
  let blind := s.rc.drive.live = true ∧ ∃ i, enters i ∧ (c i).tripEnable = true
  (∀ i, ¬on i → t.vw.channels.get i = c i) ∧
  (∀ i, on i → t.vw.channels.get i =
    { c i with
      off := (c i).off + (256 * x i - (c i).off) / 1024
      lastRaw := some (x i)
      stuck := stuck i
      level := if bad i then .fault else (c i).level
      up := if enters i then 0 else (c i).up
      dn := if enters i then 0 else (c i).dn
      low := if enters i then 0 else (c i).low
      below := if enters i then 0 else (c i).below
      sumSq := if full i then 0 else (c i).sumSq + (ac i).natAbs * (ac i).natAbs
      peak := if full i then 0 else max (c i).peak (size i)
      count := if full i then 0 else (c i).count + 1
      gapped := if full i then false else (c i).gapped
      faultSeen := if full i then false else (c i).faultSeen || decide (bad i) }) ∧
  (∀ i < 10, t.rn.notice.getLsbD i = true ↔
    s.rn.notice.getLsbD i = true ∨ (i = 6 ∧ ∃ j, enters j) ∨
    (i = 5 ∧ blind ∧ s.vw.derate ≠ .blind ∧ (s.vw.derate = .none ∨ s.rn.derateAny = true))) ∧
  t.vw.derate = (if blind then .blind else s.vw.derate) ∧
  t.vw.quietTime = (if ∃ i, enters i then 0 else s.vw.quietTime) ∧
  t.vw.evaluation =
    (if ∃ i, full i then
      some
        { due := s.now + 20 * (sensorNumbers.filter fun i => decide (on i)).length
          latched := (sensorNumbers.filter fun i => decide (full i)).map fun i =>
            { channel := i
              n := s.vw.n
              sumSq := (c i).sumSq + (ac i).natAbs * (ac i).natAbs
              peak := max (c i).peak (size i)
              gapped := (c i).gapped
              faultSeen := (c i).faultSeen || decide (bad i)
              dropped := false } }
    else none) ∧
  (∀ j : Nat, t.pt.table[j]? = (s.pt.table[j]?).map fun e =>
    if j = s.pt.sector then { e with vpeakA := max e.vpeakA (peakOf .a), vpeakB := max e.vpeakB (peakOf .b) } else e) ∧
  t = { s with
    pt := { s.pt with table := t.pt.table }
    rn := { s.rn with notice := t.rn.notice }
    vw := { s.vw with
      channels := t.vw.channels, derate := t.vw.derate, quietTime := t.vw.quietTime, evaluation := t.vw.evaluation } }

/-- What the taking of the frames that wait leaves (R103): they are taken in order, the oldest first, until none is left or one of
them begins an evaluation, behind which the rest goes on waiting. -/
def FramesTaken : List SampleFrame → State → State → Prop
  | [], s, t => t = { s with vw := { s.vw with fifo := [] } }
  | f :: rest, s, t =>
    ∃ u, FrameTaken f { s with vw := { s.vw with fifo := rest } } u ∧
      (u.vw.evaluation = none → FramesTaken rest u t) ∧ (u.vw.evaluation ≠ none → t = u)

/-! ### Revolutions, transfers and reports -/

/-- What a boundary of a kind at a time leaves of the position tracker (R86, R89, R90, R93): the tracking state given, and a new
table; in forward rotation the ended revolution is published at once, under the next number, or waits behind a publication in
flight; in reverse nothing is published. It is valid when it ends and began IN-WINDOW, untainted, with a net count in P - Tol to
P + Tol. -/
def BoundaryLeaves (kind : BoundaryKind) (becomes : Tracking) (time : Nat) (p q : PositionTracker) : Prop :=
  ∃ ended : Revolution,
    ended.table = p.table ∧ ended.startKind = p.startKind ∧ ended.endKind = kind ∧
    ended.duration = time - p.startTime ∧ ended.netCount = p.netCount ∧
    (ended.valid = true ↔ kind = .inWindow ∧ p.startKind = .inWindow ∧ p.taint = false ∧
      (p.p : Int) - p.tol ≤ p.netCount ∧ p.netCount ≤ p.p + p.tol) ∧
    q = { p with
      tracking := becomes
      table := List.replicate 32 {}
      taint := decide (becomes = .uncertain)
      startKind := kind
      startTime := time
      netCount := 0
      revNumber := if p.forward ∧ p.inFlight = none then (p.revNumber + 1) % 65536 else p.revNumber
      inFlight := if p.forward ∧ p.inFlight = none then some ⟨(p.revNumber + 1) % 65536, ended⟩ else p.inFlight
      waiting := if p.forward ∧ p.inFlight ≠ none then some ended else p.waiting }

/-- What a transfer leaves (R178): the ten live counters at 0 without marks; their values in the transferred counts, in place of
those a report has taken or added to them; the transfer number one on; taken clear. -/
def TransferLeaves (s t : State) : Prop :=
  t = { s with
    link := s.link.map fun l => { l with checkErrors := ⟨0, false⟩, missed := ⟨0, false⟩, duplicates := ⟨0, false⟩ }
    vw := { s.vw with checkErrors := ⟨0, false⟩, missed := ⟨0, false⟩, gaps := ⟨0, false⟩ }
    tru := { s.tru with staleEntries := ⟨0, false⟩ }
    rn := { s.rn with
      transferred := t.rn.transferred
      transferNumber := (s.rn.transferNumber + 1) % 65536
      taken := false } } ∧
  t.rn.transferred.toList =
    List.zipWith
      (fun (held live : Counter) =>
        if s.rn.taken then live
        else ⟨min (held.count + live.count) 65535, held.sat || live.sat || decide (65535 ≤ held.count + live.count)⟩)
      s.rn.transferred.toList
      [s.link.a.checkErrors, s.link.a.missed, s.link.a.duplicates, s.link.b.checkErrors, s.link.b.missed,
       s.link.b.duplicates, s.vw.checkErrors, s.vw.missed, s.vw.gaps, s.tru.staleEntries]

/-- What the beginning of a report's writing leaves (R176): the number one on in its first and last word, the values taken at the
request, the counts section as it stands, zeros in the rest; taken set. That the counts mode is taken then, with the transferred
counts, is the model's choice (assumption 26). -/
def ReportBegun (values : List Word) (r r' : ReportUnit) : Prop :=
  ∃ marks : Word, (∀ i < 10, marks.getLsbD i = (r.transferred.toList.map (·.sat)).getD i false) ∧
    marks.toNat < 1024 ∧
    r' = { r with
      reportNumber := (r.reportNumber + 1) % 65536
      taken := true
      inFlight := some
        ([wordN ((r.reportNumber + 1) % 65536)] ++ values ++ [if r.manual then 1 else 0, wordN r.transferNumber] ++
          r.transferred.toList.map (fun c => wordN c.count) ++ [marks] ++ List.replicate 178 0 ++
          [wordN ((r.reportNumber + 1) % 65536)]) }

/-- The values that a report takes at its request, words 0x0011 to 0x003F in order (R177, 11.5; assumption 27). -/
def ReportHolds (s : State) (values : List Word) : Prop :=
  values.length = 47 ∧
  let word := fun a : Nat => values[a - 0x0011]?
  word 0x0011 = some (wordN (s.rc.drive.code + (if s.rc.isolated.a then 16 else 0) + (if s.rc.isolated.b then 32 else 0) +
    256 * s.tru.phase.code)) ∧
  word 0x0012 = some (wordI s.tru.tdem) ∧ word 0x0013 = some (wordI s.tru.tcmd) ∧
  word 0x0014 = some (wordI s.tru.lim.a) ∧ word 0x0015 = some (wordI s.tru.lim.b) ∧
  word 0x0016 = some (wordI s.tru.lneg.a) ∧ word 0x0017 = some (wordI s.tru.lneg.b) ∧
  (∃ w, word 0x0018 = some w ∧
    ∀ i < 16, w.getLsbD i = true ↔ i < 10 ∧ ∃ c ∈ s.tu.latched, c.code = i + 1) ∧
  (s.tu.firstOut = none → word 0x0019 = some 0 ∧ word 0x001A = some 0) ∧
  (∀ c, s.tu.firstOut = some c → word 0x0019 = some (wordN c.code) ∧ word 0x001A = some (wordN c.detail)) ∧
  word 0x001B = some (if s.tu.extFiltered then 1 else 0) ∧
  word 0x001C = some (wordN s.tu.tripCount) ∧ word 0x001D = some (wordN (s.tu.tripCount / 65536)) ∧
  word 0x001E = some (wordN s.tu.nextIndex.val) ∧
  word 0x001F = some (wordI s.link.a.imeas) ∧ word 0x0020 = some (wordI s.link.b.imeas) ∧
  word 0x0021 = some (wordN s.link.a.iavail) ∧ word 0x0022 = some (wordN s.link.b.iavail) ∧
  word 0x0023 = some (wordN (s.link.a.rx.code + 4 * s.link.b.rx.code + 16 * s.vw.rx.code)) ∧
  word 0x0024 = some (wordI s.pt.speed) ∧ word 0x0025 = some (wordN s.pt.pc) ∧
  word 0x0026 = some (wordN (s.pt.sector + if s.pt.tracking = .uncertain then 32768 else 0)) ∧
  word 0x0027 = some (wordN s.vw.derate.code) ∧
  ∀ i : Fin 8,
    word (0x0028 + i.val) = some (wordN (s.vw.channels.get i).level.code) ∧
    word (0x0030 + i.val) = some (wordN (s.vw.channels.get i).lastRms) ∧
    word (0x0038 + i.val) = some (wordN (s.vw.channels.get i).lastPeak)

/-- What a report request leaves (R176, R177): the writing begins, with the values as they stand, when none is in flight; otherwise
the values wait, in place of any that waited. -/
def RequestLeaves (s t : State) : Prop :=
  t = { s with rn := t.rn } ∧
  ∃ values, ReportHolds s values ∧
    match s.rn.inFlight with
    | none => ReportBegun values s.rn t.rn
    | some _ => t.rn = { s.rn with waiting := some values }

end Sys2Proof.Machine
end

