-- ==== Sys2Proof/Certificates/Slice0/Obligations.lean ====
section
/-! DEFINITION. The statements for the provers, in the order of OBLIGATIONS.json. -/

open Sys2Proof Sys2Proof.Machine

/-! ### The step, reset and the invariants -/

/-- A step takes the command at the front of the queue and runs it with the rest of the queue. -/
def Obligations.StepRunsTheFrontCommand : Prop :=
  ∀ (c : Instr) (rest : List Instr) (s : State),
    s.pending = c :: rest → step s = exec c { s with pending := rest }

/-- What power-on leaves: exchange memory 0, every register reading 0, and the reset values of R18, R42, R59, R79, R98, R127,
R142, R156, R173 and R185. -/
def Obligations.ResetHoldsTheManualsValues : Prop :=
  let s := State.reset
  s.startUp = .initPowerOn ∧ s.initEnd = some 2000 ∧ (∀ a, s.xm.read a = 0) ∧ (∀ a, s.hostRead a = 0) ∧
  s.interrupt = false ∧
  (s.rc.drive = .stopped ∧ s.rc.permit = false ∧ s.rc.flags = ⟨false, false, false, false, false, false⟩ ∧
    s.rc.isolated = ⟨false, false⟩ ∧ s.rc.breakAway = none ∧ s.rc.stopHold = none ∧ s.rc.wba = 15 ∧ s.rc.creep = 41 ∧
    s.rc.stopHoldTime = 2000) ∧
  (s.tru.timer = none ∧ s.tru.phase = .fresh ∧ s.tru.unchanged = 0 ∧ s.tru.lastSeq = none ∧ s.tru.tdem = 0 ∧
    s.tru.tcmd = 0 ∧ s.tru.iref = ⟨0, 0⟩ ∧ s.tru.lim = ⟨0, 0⟩ ∧ s.tru.lneg = ⟨0, 0⟩ ∧
    s.tru.envelope = [(0, 4096), (4096, 4096)] ∧ s.tru.share = 2048 ∧ s.tru.imbThreshold = 820 ∧ s.tru.pim = 50 ∧
    s.tru.period = 1000 ∧ s.tru.runRamp = 40 ∧ s.tru.stopRamp = 20 ∧ s.tru.sd = 20 ∧ s.tru.hs = 200 ∧
    s.tru.lba = ⟨9011, 9011⟩ ∧ s.tru.lnegCfg = ⟨2048, 2048⟩ ∧ s.tru.margin = 410 ∧ s.tru.pte = 5 ∧
    s.tru.excessCount = 0 ∧ s.tru.imbCount = 0 ∧ s.tru.snapNumber = 0 ∧ s.tru.staleEntries = ⟨0, false⟩) ∧
  (∀ ch, s.reg.get ch = ⟨false, 0, 1024, 256, 15565, 12288, 0⟩) ∧
  (∀ ch, s.link.get ch = ⟨.down, false, 0, none, none, false, 0, 0, false, false, none, none, 0, ⟨0, false⟩, ⟨0, false⟩,
    ⟨0, false⟩⟩) ∧
  s.tloss = 1000 ∧
  (s.pt.source = .a ∧ s.pt.pc = 0 ∧ s.pt.sector = 0 ∧ s.pt.forward = true ∧ s.pt.tracking = .uncertain ∧
    s.pt.wrapped = false ∧ s.pt.lastComb = none ∧ s.pt.nw = 0 ∧ s.pt.speed = 0 ∧ s.pt.timer = none ∧ s.pt.p = 32768 ∧
    s.pt.tol = 512 ∧ s.pt.ws = 100 ∧ s.pt.kspd = 256 ∧ s.pt.table = List.replicate 32 {} ∧ s.pt.taint = true ∧
    s.pt.startKind = .restart ∧ s.pt.netCount = 0 ∧ s.pt.revNumber = 0 ∧ s.pt.inFlight = none ∧ s.pt.waiting = none) ∧
  (s.vw.rx = .down ∧ s.vw.synced = false ∧ s.vw.goodRun = 0 ∧ s.vw.lastSeq = none ∧ s.vw.lossTimer = none ∧
    s.vw.checkErrors = ⟨0, false⟩ ∧ s.vw.missed = ⟨0, false⟩ ∧ s.vw.gaps = ⟨0, false⟩ ∧ s.vw.fifo = [] ∧
    s.vw.evaluation = none ∧ s.vw.derate = .none ∧ s.vw.alertTime = 0 ∧ s.vw.quietTime = 0 ∧ s.vw.n = 1024 ∧ s.vw.pa = 3 ∧
    s.vw.pcl = 5 ∧ s.vw.pd = 2 ∧ s.vw.ld = 150 ∧ s.vw.lr = 750 ∧ s.vw.d = 3072 ∧ s.vw.k = 256 ∧ s.vw.ts = 400 ∧
    ∀ i : Fin 8, s.vw.channels.get i =
      ⟨.disabled, if i < 4 then .a else .b, false, 2048, 4096, 256, 0, 0, 0, 0, false, false, none, 0, 0, 0, 0, 0, 0, 0,
        none⟩) ∧
  (s.tu.latched = [] ∧ s.tu.firstOut = none ∧ s.tu.window = none ∧ s.tu.causeList = [] ∧ s.tu.openEntry = none ∧
    s.tu.nextIndex = 0 ∧ s.tu.tripCount = 0 ∧ s.tu.extFiltered = false ∧ s.tu.extTimer = none) ∧
  (s.rcu.ring = [] ∧ s.rcu.fillCount = 0 ∧ s.rcu.capture = none ∧ s.rcu.copy = none ∧ s.rcu.preCount = 0 ∧
    s.rcu.postCount = 0) ∧
  (s.rn.timer = none ∧ s.rn.interval = 1000 ∧ s.rn.reportNumber = 0 ∧ s.rn.inFlight = none ∧ s.rn.waiting = none ∧
    s.rn.manual = false ∧ (∀ c ∈ s.rn.transferred.toList, c = ⟨0, false⟩) ∧ s.rn.transferNumber = 0 ∧
    s.rn.taken = true ∧ s.rn.notice = 0 ∧ s.rn.mask = 0 ∧ s.rn.derateAny = false ∧ s.rn.levelAny = false) ∧
  s.cw = ⟨false, 0x0400, 0, .none, false, 0⟩

/-- Every invariant below holds in the state at reset. -/
def Obligations.ResetMeetsEveryInvariant : Prop :=
  State.reset.xm.wf ∧ State.reset.RunInv ∧ State.reset.TripInv ∧ State.reset.TorqueInv ∧ State.reset.BlindInv ∧
  State.reset.PositionInv ∧ State.reset.WatchInv ∧ State.reset.LinkInv ∧ State.reset.LayoutInv ∧ State.reset.SlotInv ∧
  State.reset.RingInv ∧ State.reset.InitInv

/-- Every step keeps exchange memory in its canonical form. -/
def Obligations.StepKeepsMemoryCanonical : Prop :=
  ∀ s t : State, s.xm.wf → step s = .next t → t.xm.wf

/-- Every step keeps run control's invariant: PERMIT asserted, and its pin high, exactly in STARTING, RUNNING and STOPPING, a
regulator ACTIVE exactly then on a channel in service, and RC's timers running only in their states. -/
def Obligations.StepKeepsRunControl : Prop :=
  ∀ s t : State, s.RunInv → step s = .next t → t.RunInv

/-- Every step keeps the trip unit's invariant: latched causes exactly in TRIPPED, cause lists of at most 8 without repeats, the
next index equal to the trip count modulo 32, and the capture in step with the window. -/
def Obligations.StepKeepsTripUnit : Prop :=
  ∀ s t : State, s.TripInv → step s = .next t → t.TripInv

/-- Every step keeps the torque invariant: each reference within its channel's limits, the references summing to Tcmd, and all
three 0 in STOPPED and TRIPPED. -/
def Obligations.StepKeepsTorque : Prop :=
  ∀ s t : State, s.TorqueInv → step s = .next t → t.TorqueInv

/-- Every step keeps BLIND established while the drive runs with the port LOST or a trip-enabled channel in FAULT. -/
def Obligations.StepKeepsBlindDerate : Prop :=
  ∀ s t : State, s.BlindInv → step s = .next t → t.BlindInv

/-- Every step keeps the position tracker's invariant: the scale in its range, Pc below P with its sector, the speed within ±32767, the
net count within a signed 32-bit value, 32 working entries, and the table tainted while the position is UNCERTAIN. -/
def Obligations.StepKeepsPosition : Prop :=
  ∀ s t : State, s.PositionInv → step s = .next t → t.PositionInv

/-- Every step keeps the vibration watch's invariant: at most three frames wait, and only during an evaluation; the loss timer of an
UP port runs; N is one of its four values; every block in progress is shorter than N; a disabled channel holds no block, counter,
result or injection; a channel in FAULT holds no counter; a latched result that is not dropped belongs to an enabled channel. -/
def Obligations.StepKeepsVibrationWatch : Prop :=
  ∀ s t : State, s.WatchInv → step s = .next t → t.WatchInv

/-- Every step keeps the invariant of both links and their regulators, among it that no command frame waits with a Vcmd beyond
±16384 or a BLOCK frame with a Vcmd other than 0. -/
def Obligations.StepKeepsLinks : Prop :=
  ∀ s t : State, s.LinkInv → step s = .next t → t.LinkInv

/-- Every step keeps the record slots' invariant: no slot reads FILLING but that of the capture in progress, and a capture is in
progress only while the cause window is OPEN. Every step keeps the history ring's invariant (R144): the newest snapshots, as many as
the fill count says, stand under consecutive numbers in the ring places of their numbers, and every other place is empty. -/
def Obligations.StepKeepsSlots : Prop :=
  (∀ s t : State, s.SlotInv → step s = .next t → t.SlotInv) ∧ (∀ s t : State, s.RingInv → step s = .next t → t.RingInv)

/-- Every step keeps INIT quiet: the drive STOPPED with PERMIT deasserted, no timer running, no receiver synchronised, nothing in
flight or walked, no notice set or marked, the PERMIT pin low and the INT pin high (R190). -/
def Obligations.StepKeepsInitQuiet : Prop :=
  ∀ s t : State, s.InitInv → step s = .next t → t.InitInv

/-- The drive state moves only as the table of 1.1 says, each move made by the command of its event (R1, R8 to R12): every other
command leaves it. A move other than into TRIPPED and other than by a reset raises STATE; a move into TRIPPED is made by a command that
reports a cause, in a drive state in which it does (RaisedBy), raises TRIP, counts one trip and has that cause as first-out. -/
def Obligations.DriveStateMovesByTheTable : Prop :=
  ∀ (c : Instr) (s t : State), c.wf = true → exec c s = .next t → t.rc.drive ≠ s.rc.drive →
    ((t.rc.drive = .tripped ∧ t.rn.notice.getLsbD 1 = true ∧ t.tu.tripCount = (s.tu.tripCount + 1) % 4294967296 ∧
        ∃ cause, RaisedBy c s cause ∧ t.tu.firstOut = some cause) ∨
      (t.rn.notice.getLsbD 9 = true ∧
        ((c = .run ∧ s.rc.drive = .stopped ∧ t.rc.drive = .starting) ∨
          (c = .speedWindowExpiry ∧ s.rc.drive = .starting ∧ t.rc.drive = .running) ∨
          (c = .stop ∧ (s.rc.drive = .starting ∨ s.rc.drive = .running) ∧ t.rc.drive = .stopping) ∨
          (c = .stopHoldExpiry ∧ s.rc.drive = .stopping ∧ t.rc.drive = .stopped) ∨
          (c = .tripReset ∧ s.rc.drive = .tripped ∧ t.rc.drive = .stopped))) ∨
      (t.rc.drive = .stopped ∧ (c = .powerOn ∨ c = .resetPin ∨ ∃ w, c = .deviceReset w)))

/-- The part writes no word of the demand block or the host area, and in the chain region only the result word of the record taken
up (9.1, R158): no command but a host write to memory and POWER_ON changes any other word there, and none but a take-up changes
that one. -/
def Obligations.PartWritesNoHostWord : Prop :=
  ∀ (c : Instr) (s t : State) (a : Nat), s.SlotInv → c.wf = true → exec c s = .next t →
    (∀ address v, c ≠ .hostMemoryWrite address v) → c ≠ .powerOn →
    (a ≤ 0x000F ∨ (0x0310 ≤ a ∧ a ≤ 0x0FFF ∧ ¬(TakesUp c ∧ s.cw.walking = true ∧ a = s.cw.nextOffset + 1))) →
    t.xm.read a = s.xm.read a

/-! ### Start-up, resets and host writes -/

/-- POWER_ON leaves the state at reset; the queue, the counter of free values and the levels of the RESET and EXTRIP pins, which
stand outside the part, are kept: the model's choice, assumptions 7 and 19. INIT_END during INIT, with the RESET pin high: READY,
and the TRU period, speed-window and report timers start with the values in force; the time of the last hand-off is the end of
INIT; the external filter's 2 ms run when EXTRIP is asserted (R19, R95, R135, R156, R175). A pin held low holds the part in INIT,
also an INIT of a warm reset, which then has no end of its own. In READY the command is no event (assumption 2). The time base is
brought up to the end of INIT, where it has one, by the command: assumption 4. -/
def Obligations.PowerOnAndTheEndOfInit : Prop :=
  (∀ s : State, exec .powerOn s = .next
      { State.reset with
        pending := s.pending
        resetLow := s.resetLow
        freeIndex := s.freeIndex
        tu := { State.reset.tu with extRaw := s.tu.extRaw } }) ∧
  (∀ s : State, s.startUp = .ready → exec .initEnd s = .next s) ∧
  (∀ s : State, s.startUp ≠ .ready → s.resetLow = true → exec .initEnd s = .next s) ∧
  (∀ s : State, s.startUp ≠ .ready → s.resetLow = false →
      let now := match s.initEnd with
        | some due => max s.now due
        | none => s.now
      exec .initEnd s = .next
        { s with
          now := now
          startUp := .ready
          initEnd := none
          tru := { s.tru with timer := some (now + s.tru.period) }
          pt := { s.pt with timer := some (now + s.pt.ws * 1000) }
          rn := { s.rn with timer := some (now + s.rn.interval * 1000) }
          rcu := { s.rcu with lastHandoff := now }
          tu := { s.tu with extTimer := if s.tu.extRaw then some (now + 2000) else none } })

/-- Outside INIT, RESET_PIN and DEVICE_RESET begin a warm reset; INIT lasts 100 µs from a DEVICE RESET write, and is held by the
pin until RESET_PIN_RETURNS_HIGH, 100 µs after which it ends. During INIT RESET_PIN restarts nothing, and a pin that returns high
before the 2 ms of a power-on leaves them as they are (the model's reading of R161, assumption 10). That a pin which falls and
returns within the 100 µs of a warm INIT ends it 100 µs after the return is the model's choice (assumption 29). That the revolution
in progress after a warm reset starts at the reset's own time is the model's reading of R86 (assumption 15). What stays of an
operation that the reset cuts is what it had written in the order of its stages (R93, R94, R149, R150, R155, R176, R185). A
publication or a report that is cut leaves its number in its first word and not in its last (R160); that the first word is always
written is the model's reading (assumption 6). -/
def Obligations.WarmResetsLeaveResetValues : Prop :=
  (∀ s : State, s.startUp = .ready → s.resetLow = false →
    ∃ t, exec .resetPin s = .next t ∧ WarmResetLeaves none true s t) ∧
  (∀ (s : State) (w : Word), s.startUp = .ready → w.getLsbD 2 = true →
    ∃ t, exec (.deviceReset w) s = .next t ∧ WarmResetLeaves (some (s.now + 100)) s.resetLow s t) ∧
  (∀ s : State, s.startUp = .initWarm → s.resetLow = true →
    exec .resetPinReturnsHigh s = .next { s with resetLow := false, initEnd := some (s.now + 100) }) ∧
  (∀ s : State, s.startUp ≠ .ready → exec .resetPin s = .next { s with resetLow := true }) ∧
  (∀ (s : State) (due : Nat), s.startUp = .initPowerOn → s.resetLow = true → s.initEnd = some due →
    exec .resetPinReturnsHigh s =
      .next { s with resetLow := false, initEnd := some (if due ≤ s.now then s.now + 100 else due) })

/-- CHAIN_START_WRITE outside INIT (R166): refused while WALKING; accepted for an offset in 0x0400 to 0x0FFF; invalid otherwise.
URGENT_STOP outside INIT reports its cause, and then, like ABANDON_CHAIN, ends a walk in progress ABANDONED with CHAIN; an IDLE walker
is left as it is (R136, R165, R171). -/
def Obligations.WalkerWritesStartAndEndWalks : Prop :=
  (∀ (w : Word) (s : State), s.startUp = .ready →
      exec (.chainStartWrite w) s = .next
        (if s.cw.walking then { s with cw := { s.cw with startRefused := true } }
        else if 0x0400 ≤ w.toNat ∧ w.toNat ≤ 0x0FFF then
          { s with cw :=
            { walking := true, nextOffset := w.toNat, orderIndex := 0, outcome := .none, startRefused := false,
              lastStart := w.toNat } }
        else
          { s with
            cw := { s.cw with outcome := .startInvalid, orderIndex := 0 }
            rn := { s.rn with notice := s.rn.notice ||| 1#10 } })) ∧
  (∀ (w : Word) (s : State), s.startUp = .ready → w.getLsbD 0 = true → w.getLsbD 2 = false →
    ∃ u, CauseReported .urgentStop s u ∧
      exec (.urgentStop w) s = .next
        (if s.cw.walking then
          { u with
            cw := { s.cw with walking := false, outcome := .abandoned }
            rn := { u.rn with notice := u.rn.notice ||| 1#10 } }
        else u)) ∧
  (∀ (w : Word) (s : State), s.startUp = .ready → w.getLsbD 1 = true → w.getLsbD 0 = false → w.getLsbD 2 = false →
    exec (.abandonChain w) s = .next
      (if s.cw.walking then
        { s with
          cw := { s.cw with walking := false, outcome := .abandoned }
          rn := { s.rn with notice := s.rn.notice ||| 1#10 } }
      else s))

/-- NOTICE_WRITE outside INIT clears each notice whose bit is 1 and leaves the others; NOTICE_MASK_WRITE stores the ten marks; the
interrupt is asserted, and the INT pin low, exactly while a notice is set whose mark is set (R183, R190). A host read outside INIT
finds a word of exchange memory that no operation in flight writes as it stands, at every progress of those operations, and else
the word of memory at that progress (the model's form for operations in flight, assumption 5). It finds the last accepted start in
CHAIN START, the fields of 11.6 in CHAIN STATUS, NOTICE, NOTICE MASK and STATE with 0 in every other bit, 0 in CONTROL, and 0 in an
unused word (R158, R163, R164, R165, R189). -/
def Obligations.NoticeWritesClearAndMask : Prop :=
  (∀ (w : Word) (s : State), s.startUp = .ready →
    ∃ t, exec (.noticeWrite w) s = .next t ∧
      (∀ i < 10, t.rn.notice.getLsbD i = (s.rn.notice.getLsbD i && !w.getLsbD i)) ∧
      t = { s with rn := { s.rn with notice := t.rn.notice } }) ∧
  (∀ (w : Word) (s : State), s.startUp = .ready →
    ∃ t, exec (.noticeMaskWrite w) s = .next t ∧
      (∀ i < 10, t.rn.mask.getLsbD i = w.getLsbD i) ∧
      t = { s with rn := { s.rn with mask := t.rn.mask } }) ∧
  (∀ s : State, s.startUp = .ready →
    (s.interrupt = true ↔ ∃ i < 10, s.rn.notice.getLsbD i = true ∧ s.rn.mask.getLsbD i = true) ∧
    (s.intPin = false ↔ ∃ i < 10, s.rn.notice.getLsbD i = true ∧ s.rn.mask.getLsbD i = true)) ∧
  (∀ s : State, s.startUp = .ready → s.cw.orderIndex ≤ 65 →
    (∀ address : Addr, address.toNat < Config.xmWords → (∀ c ∈ s.cellsInFlight, c.1 ≠ address.toNat) →
      s.hostRead address = s.xm.read address.toNat ∧ ∀ p, s.hostReadAt p address = s.xm.read address.toNat) ∧
    (∀ (p : Progress) (address : Addr), address.toNat < Config.xmWords →
      s.hostReadAt p address = (s.memoryAt p).read address.toNat) ∧
    s.hostRead 0x3FF8 = wordN s.cw.lastStart ∧
    (let status := s.hostRead 0x3FF9
     status.getLsbD 0 = s.cw.walking ∧ status.toNat / 2 % 8 = s.cw.outcome.code ∧ status.getLsbD 4 = s.cw.startRefused ∧
      status.toNat / 32 % 8 = 0 ∧ status.toNat / 256 = s.cw.orderIndex) ∧
    (∀ i < 16, (s.hostRead 0x3FFA).getLsbD i = (decide (i < 10) && s.rn.notice.getLsbD i) ∧
      (s.hostRead 0x3FFB).getLsbD i = (decide (i < 10) && s.rn.mask.getLsbD i)) ∧
    s.hostRead 0x3FFC = 0 ∧
    (let state := s.hostRead 0x3FFD
     state.getLsbD 0 = true ∧ state.toNat / 2 % 8 = s.rc.drive.code ∧ (state.getLsbD 4 = true ↔ s.tu.latched ≠ []) ∧
      state.toNat / 32 % 4 = s.vw.derate.code ∧ state.toNat / 128 % 4 = s.link.a.rx.code ∧
      state.toNat / 512 % 4 = s.link.b.rx.code ∧ state.toNat / 2048 % 4 = s.vw.rx.code ∧
      (state.getLsbD 13 = true ↔ s.pt.tracking = .uncertain) ∧ state.toNat / 16384 = 0) ∧
    (∀ address : Addr, (0x3000 ≤ address.toNat ∧ address.toNat ≤ 0x3FF7) ∨ 0x3FFE ≤ address.toNat →
      s.hostRead address = 0))

/-- Host writes outside the INIT of power-on (R146, R154, R158, R163): a word of the demand block, the host area or the chain region
is stored; a slot state word takes RELEASED and no other value; CHAIN STATUS and STATE take no write, and CONTROL none that sets no
mark (R165, R189); nothing else changes. -/
def Obligations.HostWritesStoreOnlyTheirWord : Prop :=
  (∀ (address : Addr) (v : Word) (s : State), s.startUp ≠ .initPowerOn → isRegister address.toNat = false →
    ∃ t, exec (.hostMemoryWrite address v) s = .next t ∧ t = { s with xm := t.xm } ∧
      ∀ a < Config.xmWords, t.xm.read a =
        if a = address.toNat ∧ (a ≤ 0x000F ∨ (0x0310 ≤ a ∧ a ≤ 0x0FFF) ∨ ((∃ n, a = slotStateOffset n) ∧ v = 3)) then v
        else s.xm.read a) ∧
  (∀ (n : Fin 4) (v : Word) (s : State), s.startUp ≠ .initPowerOn →
    ∃ t, exec (.slotRelease n v) s = .next t ∧ t = { s with xm := t.xm } ∧
      ∀ a < Config.xmWords, t.xm.read a = if a = slotStateOffset n ∧ v = 3 then 3 else s.xm.read a) ∧
  (∀ (address : Addr) (v : Word) (s : State),
    address.toNat = 0x3FF9 ∨ address.toNat = 0x3FFD ∨ (address.toNat = 0x3FFC ∧ ∀ i < 3, v.getLsbD i = false) →
    exec (.registerWriteIgnored address v) s = .next s)

/-- Throughout INIT every register reads 0 and ignores writes, the INT pin is high, and no pulse, marker or synchronisation is
taken; in the INIT of power-on every word of the window reads 0 and memory writes are ignored as well, while in that of a warm
reset a word of exchange memory reads as it stands: that an operation in flight, which no INIT has that a run reaches, would not
show there is the model's form (assumption 5) (R80, R82, R161, R162, R190). -/
def Obligations.InitIgnoresTheOutside : Prop :=
  (∀ s : State, s.startUp ≠ .ready →
    (∀ address : Addr, isRegister address.toNat = true → s.hostRead address = 0) ∧ s.interrupt = false ∧
    s.intPin = true ∧
    (∀ w, exec (.chainStartWrite w) s = .next s) ∧ (∀ w, exec (.urgentStop w) s = .next s) ∧
    (∀ w, exec (.abandonChain w) s = .next s) ∧ (∀ w, exec (.deviceReset w) s = .next s) ∧
    (∀ w, exec (.noticeWrite w) s = .next s) ∧ (∀ w, exec (.noticeMaskWrite w) s = .next s) ∧
    (∀ ch k, exec (.quadratureChange ch k) s = .next s) ∧ exec .markerArrival s = .next s ∧
    (∀ r, exec (.receiverSynchronised r) s = .next s)) ∧
  (∀ (s : State) (address : Addr), s.startUp = .initWarm → address.toNat < Config.xmWords →
    s.hostRead address = s.xm.read address.toNat) ∧
  (∀ s : State, s.startUp = .initPowerOn →
    (∀ address, s.hostRead address = 0) ∧ (∀ p address, s.hostReadAt p address = 0) ∧
    (∀ t p k address, s.hostReadDuring t p k address = 0) ∧
    (∀ address v, isRegister address.toNat = false → exec (.hostMemoryWrite address v) s = .next s) ∧
    (∀ n v, exec (.slotRelease n v) s = .next s))

/-! ### Take-ups -/

/-- ORDER_FORMAT_FAULT: a record that fails a check of R168 gets FORMAT with the check's detail in its result word, where that word
lies in the chain region, and the walk ends FAULT with CHAIN; nothing else changes. -/
def Obligations.FormatFaultEndsTheWalk : Prop :=
  ∀ (s : State) (d : Nat), s.cw.walking = true → s.formatDetail d →
    ∃ t, exec .orderFormatFault s = .next t ∧
      (∀ a < Config.xmWords, t.xm.read a =
        if a = s.cw.nextOffset + 1 ∧ 0x0400 ≤ a ∧ a ≤ 0x0FFF then wordN (0x0900 + d) else s.xm.read a) ∧
      t = { s with
        xm := t.xm
        cw := { s.cw with orderIndex := s.cw.orderIndex + 1, walking := false, outcome := .fault }
        rn := { s.rn with notice := s.rn.notice ||| 1#10 } }

/-- Every take-up of an order of each kind either carries DONE, or is a refusal, of one of the codes with which its kind can be
refused, that changes nothing but the result word and the end of the walk (R169, R170, 9.5). -/
def Obligations.RefusedOrderChangesNothingElse : Prop :=
  ∀ (k : OrderKind) (s : State), s.RecordReady k → (∀ n, s.tu.window = some n → n ≤ 23) →
    ∃ t, exec k.command s = .next t ∧
      (t.xm.read (s.cw.nextOffset + 1) = 0x0100#16 ∨
        ∃ code ∈ refusalCodes k, ∃ detail < 256,
          RecordRefused (wordN (code * 256 + detail)) s t)

/-- A target that its order does not take refuses the order REFUSED_RANGE with detail 0, before any other check (R174); with a target
that it takes, a parameter out of range refuses it REFUSED_RANGE with the number of the first such parameter, counted from 1 (R38,
R39, R54, R56, R97, R123, R124, R184). -/
def Obligations.TargetThenFirstBadParameterRefuses : Prop :=
  (∀ (k : OrderKind) (s : State), s.RecordReady k → ¬targetTaken k s.targetCode →
      ∃ t, exec k.command s = .next t ∧ RecordRefused 0x0300#16 s t) ∧
  (∀ (k : OrderKind) (s : State) (i : Nat) (p : Prop), s.RecordReady k → targetTaken k s.targetCode →
      (s.parameterChecks k)[i]? = some p → ¬p → (∀ q ∈ (s.parameterChecks k).take i, q) →
      ∃ t, exec k.command s = .next t ∧ RecordRefused (wordN (0x0300 + i + 1)) s t)

/-- SET LOOP (R54): Kp, Ki and Vlim of the target channels are replaced, Acc kept, and their LOOP flags set. SET LIMITS (R56): Ioc,
Lba and Lneg_cfg of the target channels are replaced, the shared margin and Pte whatever the target, and the channels' LIMITS flags
set. -/
def Obligations.LoopAndLimitsOrdersActOnTargets : Prop :=
  (∀ s : State, s.RecordReady .setLoop → 9 ≤ s.targetCode ∧ s.targetCode ≤ 11 → s.par 2 ≤ 16384 →
      let onA := s.targetCode ≠ 10
      let onB := s.targetCode ≠ 9
      let loop := fun r : Regulator => { r with kp := s.par 0, ki := s.par 1, vlim := s.par 2 }
      ∃ t, exec .setLoop s = .next t ∧
        RecordDone .setLoop s
          { s with
            reg := ⟨if onA then loop s.reg.a else s.reg.a, if onB then loop s.reg.b else s.reg.b⟩
            rc := { s.rc with flags :=
              { s.rc.flags with
                loopA := s.rc.flags.loopA || decide onA
                loopB := s.rc.flags.loopB || decide onB } } } t) ∧
  (∀ s : State, s.RecordReady .setLimits → 9 ≤ s.targetCode ∧ s.targetCode ≤ 11 → (∀ i < 4, s.par i ≤ 32767) →
      1 ≤ s.par 4 ∧ s.par 4 ≤ 32767 →
      let onA := s.targetCode ≠ 10
      let onB := s.targetCode ≠ 9
      ∃ t, exec .setLimits s = .next t ∧
        RecordDone .setLimits s
          { s with
            reg := ⟨if onA then { s.reg.a with ioc := s.par 0 } else s.reg.a,
              if onB then { s.reg.b with ioc := s.par 0 } else s.reg.b⟩
            tru := { s.tru with
              lba := ⟨if onA then s.par 1 else s.tru.lba.a, if onB then s.par 1 else s.tru.lba.b⟩
              lnegCfg := ⟨if onA then s.par 2 else s.tru.lnegCfg.a, if onB then s.par 2 else s.tru.lnegCfg.b⟩
              margin := s.par 3
              pte := s.par 4 }
            rc := { s.rc with flags :=
              { s.rc.flags with
                limitsA := s.rc.flags.limitsA || decide onA
                limitsB := s.rc.flags.limitsB || decide onB } } } t)

/-- LOAD ENVELOPE (R40): n breakpoints of 0 to 32767 with ascending speeds replace the table whole and set flag 5; a count outside 2
to 8 is refused REFUSED_TABLE with detail 8, and otherwise the first breakpoint at which a check fails refuses with its index. -/
def Obligations.LoadEnvelopeReplacesOrRefuses : Prop :=
  ∀ s : State, s.RecordReady .loadEnvelope →
    let n := s.par 0
    let good := fun i => s.par (1 + 2 * i) ≤ 32767 ∧ s.par (2 + 2 * i) ≤ 32767 ∧
      (0 < i → s.par (1 + 2 * (i - 1)) < s.par (1 + 2 * i))
    ∃ t, exec .loadEnvelope s = .next t ∧
      (¬(2 ≤ n ∧ n ≤ 8) → RecordRefused 0x0408#16 s t) ∧
      (2 ≤ n ∧ n ≤ 8 → (∀ i < n, good i) →
        RecordDone .loadEnvelope s
          { s with
            tru := { s.tru with envelope := (List.range n).map fun i => (s.par (1 + 2 * i), s.par (2 + 2 * i)) }
            rc := { s.rc with flags := { s.rc.flags with envelope := true } } } t) ∧
      (2 ≤ n ∧ n ≤ 8 → ∀ i < n, (∀ j < i, good j) → ¬good i → RecordRefused (wordN (0x0400 + i)) s t)

/-- SET SHARE, SET REFERENCE and SET REPORT, with every parameter in range, replace all their values and nothing else (R38, R39,
R78, R184). -/
def Obligations.ScalarOrdersReplaceTheirValues : Prop :=
  (∀ s : State, s.RecordReady .setShare → (∀ p ∈ s.parameterChecks .setShare, p) →
    ∃ t, exec .setShare s = .next t ∧
      RecordDone .setShare s
        { s with tru := { s.tru with share := s.par 0, imbThreshold := s.par 1, pim := s.par 2 } } t) ∧
  (∀ s : State, s.RecordReady .setReference → (∀ p ∈ s.parameterChecks .setReference, p) →
    ∃ t, exec .setReference s = .next t ∧
      RecordDone .setReference s
        { s with tru := { s.tru with
          period := s.par 0, runRamp := s.par 1, stopRamp := s.par 2, sd := s.par 3, hs := s.par 4 } } t) ∧
  (∀ s : State, s.RecordReady .setReport → (∀ p ∈ s.parameterChecks .setReport, p) →
    ∃ t, exec .setReport s = .next t ∧
      RecordDone .setReport s
        { s with
          tloss := s.par 4
          rn := { s.rn with
            interval := s.par 0
            manual := decide (s.par 1 = 1)
            derateAny := decide (s.par 2 = 1)
            levelAny := decide (s.par 3 = 1) } } t)

/-- SET WATCH and SET POSITION, with every parameter in range (R97, R17, R124): SET WATCH replaces its nine values and empties the
block in progress of every enabled channel; SET POSITION replaces the scale and run control's three values, sets Pc and the sector 0
and the position UNCERTAIN, starts a tainted RESTART table and sets flag 6; direction, Nw and speed are kept. -/
def Obligations.WatchAndPositionOrdersRestart : Prop :=
  (∀ s : State, s.RecordReady .setWatch → (∀ p ∈ s.parameterChecks .setWatch, p) →
    ∃ t, exec .setWatch s = .next t ∧
      RecordDone .setWatch s
        { s with vw := { s.vw with
          n := s.par 0, pa := s.par 1, pcl := s.par 2, pd := s.par 3, ld := s.par 4, lr := s.par 5, d := s.par 6
          k := s.par 7, ts := s.par 8
          channels := s.vw.channels.map fun c =>
            if c.level = .disabled then c
            else { c with sumSq := 0, peak := 0, count := 0, gapped := false, faultSeen := false } } } t) ∧
  (∀ s : State, s.RecordReady .setPosition → (∀ p ∈ s.parameterChecks .setPosition, p) →
    ∃ t, exec .setPosition s = .next t ∧
      RecordDone .setPosition s
        { s with
          pt := { s.pt with
            p := s.par 0, tol := s.par 1, ws := s.par 2, kspd := s.par 3, pc := 0, sector := 0
            tracking := .uncertain, wrapped := false, table := List.replicate 32 {}, taint := true
            startKind := .restart, startTime := s.now, netCount := 0 }
          rc := { s.rc with
            creep := s.par 4, wba := s.par 5, stopHoldTime := s.par 6
            flags := { s.rc.flags with position := true } } } t)

/-- SET SENSOR, with every parameter in range (R123): each target channel takes the five values, and its enable enables, keeps or
disables it; a disabled channel's latched result is dropped; a channel enabled or disabled raises LEVEL under ANY; a target left
trip-enabled in FAULT while the drive runs establishes BLIND with the quiet time at 0, and DERATE by its kind and edge; every other
channel, and everything else, is kept. -/
def Obligations.SetSensorActsOnItsTargets : Prop :=
  ∀ s : State, s.RecordReady .setSensor → s.targetCode ≤ 8 → (∀ p ∈ s.parameterChecks .setSensor, p) →
    let named := fun i : Fin 8 => s.targetCode = 8 ∨ s.targetCode = i.val
    let was := fun i : Fin 8 => (s.vw.channels.get i).level ≠ .disabled
    ∃ t u, exec .setSensor s = .next t ∧ RecordDone .setSensor s u t ∧
      (∀ i, ¬named i → u.vw.channels.get i = s.vw.channels.get i) ∧
      (∀ i, named i →
        u.vw.channels.get i =
          { (if s.par 0 = 1 then
              if was i then s.vw.channels.get i
              else
                { s.vw.channels.get i with
                  level := .quiet, sumSq := 0, peak := 0, count := 0, gapped := false, faultSeen := false, lastRaw := none
                  stuck := 0, up := 0, dn := 0, low := 0, below := 0, lastRms := 0, lastPeak := 0 }
            else if was i then
              { s.vw.channels.get i with
                level := .disabled, sumSq := 0, peak := 0, count := 0, gapped := false, faultSeen := false, up := 0, dn := 0
                low := 0, below := 0, lastRms := 0, lastPeak := 0, injection := none }
            else s.vw.channels.get i) with
            group := if s.par 1 = 0 then .a else .b
            alertLevel := s.par 2
            dangerLevel := s.par 3
            hysteresis := s.par 4
            tripEnable := decide (s.par 5 = 1) }) ∧
      (let changed := ∃ i, named i ∧ ¬(was i ↔ s.par 0 = 1)
       let blind := s.rc.drive.live = true ∧
         ∃ i, named i ∧ (u.vw.channels.get i).tripEnable = true ∧ (u.vw.channels.get i).level = .fault
       (∀ i < 10, u.rn.notice.getLsbD i = true ↔
         s.rn.notice.getLsbD i = true ∨ (i = 6 ∧ changed ∧ s.rn.levelAny = true) ∨
         (i = 5 ∧ blind ∧ s.vw.derate ≠ .blind ∧ (s.vw.derate = .none ∨ s.rn.derateAny = true))) ∧
       (blind → u.vw.derate = .blind ∧ u.vw.quietTime = 0) ∧
       (¬blind → u.vw.derate = s.vw.derate ∧ u.vw.quietTime = s.vw.quietTime)) ∧
      u = { s with
        rn := { s.rn with notice := u.rn.notice }
        vw := { s.vw with
          channels := u.vw.channels
          derate := u.vw.derate
          quietTime := u.vw.quietTime
          evaluation := s.vw.evaluation.map fun e =>
            { e with latched := e.latched.map fun l =>
                { l with dropped := l.dropped || decide (named l.channel ∧ was l.channel ∧ s.par 0 = 0) } } } }

/-- RUN (R5, R6): in STOPPED, with every required flag set, the links of the channels in service UP, READY, without FAULT and without
a held break, and no injection, the drive becomes STARTING with PERMIT asserted, the break-away timer runs for Wba, the regulators of
the channels in service become ACTIVE with Acc 0, STATE is raised, and BLIND is established when the port is LOST or a trip-enabled
channel is in FAULT, with DERATE by its kind and edge. -/
def Obligations.RunStartsTheDrive : Prop :=
  ∀ s : State, s.RecordReady .run → s.rc.drive = .stopped →
    (s.rc.isolated.a = false → s.rc.flags.loopA = true ∧ s.rc.flags.limitsA = true) →
    (s.rc.isolated.b = false → s.rc.flags.loopB = true ∧ s.rc.flags.limitsB = true) →
    s.rc.flags.envelope = true → s.rc.flags.position = true →
    (∀ ch, s.rc.isolated.get ch = false →
      (s.link.get ch).rx = .up ∧ (s.link.get ch).ready = true ∧ (s.link.get ch).fault = false ∧
        (s.link.get ch).breakHeld = false) →
    (∀ i, (s.vw.channels.get i).injection = none) →
    let blind := s.vw.rx = .lost ∨ ∃ i, (s.vw.channels.get i).tripEnable = true ∧ (s.vw.channels.get i).level = .fault
    ∃ t u, exec .run s = .next t ∧ RecordDone .run s u t ∧
      (∀ i < 10, u.rn.notice.getLsbD i = true ↔
        s.rn.notice.getLsbD i = true ∨ i = 9 ∨
        (i = 5 ∧ blind ∧ s.vw.derate ≠ .blind ∧ (s.vw.derate = .none ∨ s.rn.derateAny = true))) ∧
      (blind → u.vw.derate = .blind ∧ u.vw.quietTime = 0) ∧
      (¬blind → u.vw = s.vw) ∧
      u = { s with
        rc := { s.rc with
          drive := .starting, permit := true, breakAway := some (s.now + s.rc.wba * 1000000), stopHold := none }
        reg := ⟨if s.rc.isolated.a then s.reg.a else { s.reg.a with active := true, acc := 0 },
          if s.rc.isolated.b then s.reg.b else { s.reg.b with active := true, acc := 0 }⟩
        vw := { s.vw with derate := u.vw.derate, quietTime := u.vw.quietTime }
        rn := { s.rn with notice := u.rn.notice } }

/-- RUN is refused at the first check of R5 that fails: the drive state, the lowest missing flag, the first link not fit, an
injection. -/
def Obligations.RunRefusedAtItsFirstCheck : Prop :=
  ∀ s : State, s.RecordReady .run →
    let missing := fun n : Nat =>
      (n = 1 ∧ s.rc.isolated.a = false ∧ s.rc.flags.loopA = false) ∨ (n = 2 ∧ s.rc.isolated.b = false ∧ s.rc.flags.loopB = false) ∨
      (n = 3 ∧ s.rc.isolated.a = false ∧ s.rc.flags.limitsA = false) ∨
      (n = 4 ∧ s.rc.isolated.b = false ∧ s.rc.flags.limitsB = false) ∨ (n = 5 ∧ s.rc.flags.envelope = false) ∨
      (n = 6 ∧ s.rc.flags.position = false)
    let unfit := fun ch =>
      s.rc.isolated.get ch = false ∧ ¬((s.link.get ch).rx = .up ∧ (s.link.get ch).ready = true ∧
        (s.link.get ch).fault = false ∧ (s.link.get ch).breakHeld = false)
    ∃ t, exec .run s = .next t ∧
      (s.rc.drive ≠ .stopped → RecordRefused (wordN (0x0200 + s.rc.drive.code)) s t) ∧
      (s.rc.drive = .stopped → ∀ n, missing n → (∀ m < n, ¬missing m) → RecordRefused (wordN (0x0500 + n)) s t) ∧
      (s.rc.drive = .stopped → (∀ n, ¬missing n) → unfit .a → RecordRefused 0x0600#16 s t) ∧
      (s.rc.drive = .stopped → (∀ n, ¬missing n) → ¬unfit .a → unfit .b → RecordRefused 0x0601#16 s t) ∧
      (s.rc.drive = .stopped → (∀ n, ¬missing n) → ¬unfit .a → ¬unfit .b →
        (∃ i, (s.vw.channels.get i).injection ≠ none) → RecordRefused 0x0206#16 s t)

/-- STOP (R9, R10): STARTING or RUNNING becomes STOPPING, the break-away timer stops, STATE is raised, and the stop-hold condition is
evaluated at once, Tcmd 0 and |speed| at most creep starting the timer; in STOPPING nothing changes; in STOPPED and TRIPPED it is
refused with the drive-state code. -/
def Obligations.StopByDriveState : Prop :=
  ∀ s : State, s.RecordReady .stop →
    ∃ t, exec .stop s = .next t ∧
      (s.rc.drive = .starting ∨ s.rc.drive = .running → s.rc.stopHold = none →
        RecordDone .stop s
          { s with
            rc := { s.rc with
              drive := .stopping
              breakAway := none
              stopHold :=
                if s.tru.tcmd = 0 ∧ s.pt.speed.natAbs ≤ s.rc.creep then some (s.now + s.rc.stopHoldTime * 1000) else none }
            rn := { s.rn with notice := s.rn.notice ||| 0x200#10 } } t) ∧
      (s.rc.drive = .stopping → RecordDone .stop s s t) ∧
      (s.rc.drive = .stopped ∨ s.rc.drive = .tripped → RecordRefused (wordN (0x0200 + s.rc.drive.code)) s t)

/-- TRIP RESET (R138 to R140): in TRIPPED, with the window CLOSED and no latched cause active, the latched set is emptied, the
first-out is none, the drive is STOPPED and STATE is raised; otherwise it is refused with the drive-state code, the window's count,
or the lowest code of an active latched cause. -/
def Obligations.TripResetByItsChecks : Prop :=
  ∀ s : State, s.RecordReady .tripReset →
    ∃ t, exec .tripReset s = .next t ∧
      (s.rc.drive = .tripped → s.tu.window = none → (∀ c ∈ s.tu.latched, ¬s.ActiveCause c) →
        RecordDone .tripReset s
          { s with
            tu := { s.tu with latched := [], firstOut := none }
            rc := { s.rc with drive := .stopped }
            rn := { s.rn with notice := s.rn.notice ||| 0x200#10 } } t) ∧
      (s.rc.drive ≠ .tripped → RecordRefused (wordN (0x0200 + s.rc.drive.code)) s t) ∧
      (s.rc.drive = .tripped → ∀ n, s.tu.window = some n → n ≤ 23 → RecordRefused (wordN (0x0800 + n)) s t) ∧
      (s.rc.drive = .tripped → s.tu.window = none → ∀ c ∈ s.tu.latched, s.ActiveCause c →
        (∀ d ∈ s.tu.latched, s.ActiveCause d → c.code ≤ d.code) → RecordRefused (wordN (0x0700 + c.code)) s t)

/-- ISOLATE and RESTORE with target A or B (R13, R15, R16, R96): taken in STOPPED only; ISOLATE is refused with detail 7 while the
other channel is isolated; a change of A's flag switches the position source, forgets the pair's last combination and makes the
position UNCERTAIN, which taints a table that was TRACKING. -/
def Obligations.IsolateAndRestoreSetTheFlag : Prop :=
  ∀ (s : State) (ch : Chan), s.targetCode = 9 + chanIndex ch →
    let changed := fun flag : Bool =>
      { s with
        rc := { s.rc with isolated := s.rc.isolated.set ch flag }
        pt := if ch = .a then
            { s.pt with
              source := if flag then .b else .a
              lastComb := none
              taint := s.pt.taint || decide (s.pt.tracking = .tracking)
              tracking := .uncertain }
          else s.pt }
    (s.RecordReady .isolate → ∃ t, exec .isolate s = .next t ∧
      (s.rc.drive ≠ .stopped → RecordRefused (wordN (0x0200 + s.rc.drive.code)) s t) ∧
      (s.rc.drive = .stopped → s.rc.isolated.get (otherChan ch) = true → RecordRefused 0x0207#16 s t) ∧
      (s.rc.drive = .stopped → s.rc.isolated.get (otherChan ch) = false →
        RecordDone .isolate s (if s.rc.isolated.get ch then s else changed true) t)) ∧
    (s.RecordReady .restore → ∃ t, exec .restore s = .next t ∧
      (s.rc.drive ≠ .stopped → RecordRefused (wordN (0x0200 + s.rc.drive.code)) s t) ∧
      (s.rc.drive = .stopped →
        RecordDone .restore s (if s.rc.isolated.get ch then changed false else s) t))

/-- CLEAR DERATE (R121, R122): NONE is left; an established derate is released, with the quiet time at 0 and DERATE under ANY, when
the port is UP and every enabled channel is QUIET; otherwise it is refused with 8 for the port, or with the lowest enabled channel
that is not QUIET. -/
def Obligations.ClearDerateUnderTheQuietCondition : Prop :=
  ∀ s : State, s.RecordReady .clearDerate →
    let loud := fun i : Fin 8 => (s.vw.channels.get i).level ≠ .disabled ∧ (s.vw.channels.get i).level ≠ .quiet
    ∃ t, exec .clearDerate s = .next t ∧
      (s.vw.derate = .none → RecordDone .clearDerate s s t) ∧
      (s.vw.derate ≠ .none → s.vw.rx = .up → (∀ i, ¬loud i) →
        RecordDone .clearDerate s
          { s with
            vw := { s.vw with derate := .none, quietTime := 0 }
            rn := { s.rn with notice := if s.rn.derateAny then s.rn.notice ||| 0x20#10 else s.rn.notice } } t) ∧
      (s.vw.derate ≠ .none → s.vw.rx ≠ .up → RecordRefused 0x0708#16 s t) ∧
      (s.vw.derate ≠ .none → s.vw.rx = .up → ∀ i, loud i → (∀ j < i, ¬loud j) →
        RecordRefused (wordN (0x0700 + i.val)) s t)

/-- TEST TRIP (R137): in STOPPED the order is DONE and the trip is made in full, with the cause TEST; otherwise it is refused with
the drive-state code. INJECT LEVEL with a sensor channel as target (R125): in STOPPED, on an enabled channel, a value of 0 to 32767 and
a count of 1 to 255 make the channel's injection; otherwise the first check that fails refuses. -/
def Obligations.TestOrdersActInStopped : Prop :=
  (∀ s : State, s.RecordReady .testTrip →
      ∃ t, exec .testTrip s = .next t ∧
        (s.rc.drive = .stopped → ∃ u, FirstCauseLeaves .test s u ∧ RecordDone .testTrip s u t) ∧
        (s.rc.drive ≠ .stopped → RecordRefused (wordN (0x0200 + s.rc.drive.code)) s t)) ∧
  (∀ (s : State) (n : Fin 8), s.RecordReady .injectLevel → s.targetCode = n.val →
      ∃ t, exec .injectLevel s = .next t ∧
        (s.rc.drive ≠ .stopped → RecordRefused (wordN (0x0200 + s.rc.drive.code)) s t) ∧
        (s.rc.drive = .stopped → (s.vw.channels.get n).level = .disabled → RecordRefused 0x0208#16 s t) ∧
        (s.rc.drive = .stopped → (s.vw.channels.get n).level ≠ .disabled → 32767 < s.par 0 → RecordRefused 0x0301#16 s t) ∧
        (s.rc.drive = .stopped → (s.vw.channels.get n).level ≠ .disabled → s.par 0 ≤ 32767 →
          ¬(1 ≤ s.par 1 ∧ s.par 1 ≤ 255) → RecordRefused 0x0302#16 s t) ∧
        (s.rc.drive = .stopped → (s.vw.channels.get n).level ≠ .disabled → s.par 0 ≤ 32767 → 1 ≤ s.par 1 ∧ s.par 1 ≤ 255 →
          RecordDone .injectLevel s
            { s with vw := { s.vw with
              channels := s.vw.channels.set n { s.vw.channels.get n with injection := some ⟨s.par 0, s.par 1⟩ } } } t))

/-- TRANSFER COUNTS makes a transfer and requests a report, in any drive state and counts mode (R179); a report-timer expiry
restarts the timer with the interval in force, makes a transfer in AUTO mode only, and requests a report (R175), at a time base
brought up to the expiry (assumption 4). The values of the report are taken as they
stand at the request (R177), word by word; that
the receive states and the tracking state are so taken is the model's choice (assumption 27). -/
def Obligations.TransfersAndReportRequests : Prop :=
  (∀ s : State, s.RecordReady .transferCounts →
    ∃ t u v, exec .transferCounts s = .next t ∧ TransferLeaves s u ∧ RequestLeaves u v ∧ RecordDone .transferCounts s v t) ∧
  (∀ (s : State) (due : Nat), s.rn.timer = some due →
    let r := { s with
      now := max s.now due, rn := { s.rn with timer := some (max s.now due + s.rn.interval * 1000) } }
    ∃ t, exec .reportTimerExpiry s = .next t ∧
      (s.rn.manual = true → RequestLeaves r t) ∧
      (s.rn.manual = false → ∃ u, TransferLeaves r u ∧ RequestLeaves u t))

/-! ### Run control, speed and position -/

/-- BREAK_AWAY_EXPIRY in STARTING trips the drive with STALL (R7); STOP_HOLD_EXPIRY in STOPPING takes it to STOPPED: PERMIT
deasserted, both regulators BLOCKED, the watch counts 0, STATE (R2, R10, R34, R45). Each brings the time base up to its expiry
(assumption 4). -/
def Obligations.RunControlTimersExpire : Prop :=
  (∀ (s : State) (due : Nat), s.rc.breakAway = some due → s.rc.drive = .starting →
    ∃ t, exec .breakAwayExpiry s = .next t ∧
      FirstCauseLeaves .stall { s with now := max s.now due, rc := { s.rc with breakAway := none } } t) ∧
  (∀ (s : State) (due : Nat), s.rc.stopHold = some due → s.rc.drive = .stopping →
    exec .stopHoldExpiry s = .next
      { s with
        now := max s.now due
        rc := { s.rc with drive := .stopped, permit := false, stopHold := none }
        tru := { s.tru with excessCount := 0, imbCount := 0 }
        reg := s.reg.map fun r => { r with active := false, acc := 0, lastVcmd := 0 }
        rn := { s.rn with notice := s.rn.notice ||| 0x200#10 } })

/-- SPEED_WINDOW_EXPIRY (R95): the speed becomes floor(Nw * Kspd / 256) within ±32767, Nw 0, and the timer restarts with the Ws in
force. In STARTING a magnitude of at least creep makes the drive RUNNING, with the break-away timer stopped and STATE (R8); in
STOPPING the stop-hold condition is evaluated (R10): a running timer runs on, a stopped one starts, a false condition stops it. The
time base is brought up to the expiry (assumption 4). -/
def Obligations.SpeedWindowMeasuresAndInforms : Prop :=
  ∀ (s : State) (due : Nat), s.pt.timer = some due →
    let now := max s.now due
    let speed := max (-32767) (min 32767 (s.pt.nw * (s.pt.kspd : Int) / 256))
    let moving := s.rc.drive = .starting ∧ s.rc.creep ≤ speed.natAbs
    exec .speedWindowExpiry s = .next
      { s with
        now := now
        pt := { s.pt with speed := speed, nw := 0, timer := some (now + s.pt.ws * 1000) }
        rc := if moving then { s.rc with drive := .running, breakAway := none }
          else if s.rc.drive = .stopping then
            { s.rc with
              stopHold :=
                if s.tru.tcmd = 0 ∧ speed.natAbs ≤ s.rc.creep then
                  some (s.rc.stopHold.getD (now + s.rc.stopHoldTime * 1000))
                else none }
          else s.rc
        rn := if moving then { s.rn with notice := s.rn.notice ||| 0x200#10 } else s.rn }

/-- QUADRATURE_CHANGE of the source's pair outside INIT (R80, R81, R83, R84): without a last combination it only sets it; a step
forward or reverse is a pulse, which moves Pc, the sector, Nw and the net count, marks a wrap, and taints the table at a change of
direction; a forward pulse to Tol + 1 with wrapped set is a missed-marker boundary; two steps are a double step, which makes the
position UNCERTAIN. The other pair is ignored. -/
def Obligations.QuadratureCountsTheSource : Prop :=
  (∀ (s : State) (ch : Chan) (k : Fin 4), ch ≠ s.pt.source → exec (.quadratureChange ch k) s = .next s) ∧
  (∀ (s : State) (k : Fin 4), s.startUp = .ready → s.pt.lastComb = none →
    exec (.quadratureChange s.pt.source k) s = .next { s with pt := { s.pt with lastComb := some k } }) ∧
  (∀ (s : State) (k : Fin 4), s.startUp = .ready → s.pt.lastComb = some k →
    let pc := if s.pt.pc + 1 = s.pt.p then 0 else s.pt.pc + 1
    let moved := { s.pt with
      lastComb := some (k + 1)
      pc := pc
      sector := pc * 32 / s.pt.p
      wrapped := s.pt.wrapped || decide (s.pt.pc + 1 = s.pt.p)
      nw := s.pt.nw + 1
      netCount := max (-2147483648) (min 2147483647 (s.pt.netCount + 1))
      taint := s.pt.taint || !s.pt.forward
      forward := true }
    ∃ t, exec (.quadratureChange s.pt.source (k + 1)) s = .next t ∧ t = { s with pt := t.pt } ∧
      (¬(moved.wrapped = true ∧ pc = s.pt.tol + 1) → t.pt = moved) ∧
      (moved.wrapped = true ∧ pc = s.pt.tol + 1 →
        BoundaryLeaves .missedMarker .uncertain s.now { moved with wrapped := false } t.pt)) ∧
  (∀ (s : State) (k : Fin 4), s.startUp = .ready → s.pt.lastComb = some k →
    let pc := if s.pt.pc = 0 then s.pt.p - 1 else s.pt.pc - 1
    exec (.quadratureChange s.pt.source (k - 1)) s = .next
      { s with pt := { s.pt with
        lastComb := some (k - 1)
        pc := pc
        sector := pc * 32 / s.pt.p
        wrapped := s.pt.wrapped && !decide (s.pt.pc = 0)
        nw := s.pt.nw - 1
        netCount := max (-2147483648) (min 2147483647 (s.pt.netCount - 1))
        taint := s.pt.taint || s.pt.forward
        forward := false } }) ∧
  (∀ (s : State) (k : Fin 4), s.startUp = .ready → s.pt.lastComb = some k →
    exec (.quadratureChange s.pt.source (k + 2)) s = .next
      { s with pt := { s.pt with
        lastComb := some (k + 2)
        taint := s.pt.taint || decide (s.pt.tracking = .tracking)
        tracking := .uncertain } })

/-- MARKER_ARRIVAL outside INIT (R82, R89, R90): a boundary, IN-WINDOW with the position TRACKING when Pc lies in P - Tol to P - 1 or
in 0 to Tol, OUT-OF-WINDOW with it UNCERTAIN otherwise; then Pc and the sector are 0 and wrapped is clear. -/
def Obligations.MarkerIsARevolutionBoundary : Prop :=
  ∀ s : State, s.startUp = .ready → s.pt.tol ≤ s.pt.p → s.pt.pc < s.pt.p →
    let inside := s.pt.p ≤ s.pt.pc + s.pt.tol ∨ s.pt.pc ≤ s.pt.tol
    ∃ t p', exec .markerArrival s = .next t ∧
      (inside → BoundaryLeaves .inWindow .tracking s.now s.pt p') ∧
      (¬inside → BoundaryLeaves .outOfWindow .uncertain s.now s.pt p') ∧
      t = { s with pt := { p' with pc := 0, sector := 0, wrapped := false } }

/-- PUBLICATION_COMPLETION (R91, R92, R93, 11.5): the sector table and the revolution summary of the publication in flight stand in
exchange memory, word by word, under the same number at both ends; no other word changes; REVOLUTION is raised; a copy waiting begins
under the next number. While it is in flight, each word reads as before or as after, 0x0300 being written first and 0x030F last. -/
def Obligations.PublicationWritesTheSectorBlock : Prop :=
  ∀ (s : State) (pub : Publication), s.pt.inFlight = some pub → pub.rev.table.length = 32 →
    let held := fun i : Int => max (-32768) (min 32767 i)
    let counted := pub.rev.table.filter fun e => e.count ≠ 0
    let net := (pub.rev.netCount % 4294967296).toNat
    ∃ t, exec .publicationCompletion s = .next t ∧
      (∀ a < Config.xmWords, a < 0x0200 ∨ 0x0310 ≤ a → t.xm.read a = s.xm.read a) ∧
      t.xm.read 0x0300 = wordN pub.number ∧ t.xm.read 0x030F = wordN pub.number ∧
      (∀ i < 32, ∀ e, pub.rev.table[i]? = some e →
        t.xm.read (0x0200 + 8 * i) = wordN i ∧ t.xm.read (0x0201 + 8 * i) = wordN e.count ∧
        t.xm.read (0x0202 + 8 * i) = (if e.count = 0 then 0 else wordI (held (e.tmax.getD 0))) ∧
        t.xm.read (0x0203 + 8 * i) = (if e.count = 0 then 0 else wordI (held (e.tmin.getD 0))) ∧
        t.xm.read (0x0204 + 8 * i) = (if e.count = 0 then 0 else wordI (held (e.sum / (e.count : Int)))) ∧
        t.xm.read (0x0205 + 8 * i) = wordN e.vpeakA ∧ t.xm.read (0x0206 + 8 * i) = wordN e.vpeakB ∧
        t.xm.read (0x0207 + 8 * i) =
          wordN ((if pub.rev.valid then 1 else 0) + (if e.count = 0 then 2 else 0) + (if e.countFull then 4 else 0))) ∧
      t.xm.read 0x0301 = wordN pub.rev.startKind.code ∧ t.xm.read 0x0302 = wordN pub.rev.endKind.code ∧
      t.xm.read 0x0303 = wordN (min (pub.rev.duration / 1000) 65535) ∧
      t.xm.read 0x0304 = wordN net ∧ t.xm.read 0x0305 = wordN (net / 65536) ∧
      (counted = [] → t.xm.read 0x0306 = 0 ∧ t.xm.read 0x0307 = 0xFFFF#16 ∧ t.xm.read 0x0308 = 0xFFFF#16 ∧
        t.xm.read 0x0309 = 0) ∧
      (counted ≠ [] →
        ∃ (i j : Fin 32) (e f : WorkEntry), pub.rev.table[i.val]? = some e ∧ pub.rev.table[j.val]? = some f ∧
          e.count ≠ 0 ∧ f.count ≠ 0 ∧
          (∀ (k : Nat) (x : WorkEntry), pub.rev.table[k]? = some x → x.count ≠ 0 →
            held (x.tmax.getD 0) ≤ held (e.tmax.getD 0) ∧ (k < i.val → held (x.tmax.getD 0) < held (e.tmax.getD 0)) ∧
            held (f.tmin.getD 0) ≤ held (x.tmin.getD 0) ∧ (k < j.val → held (f.tmin.getD 0) < held (x.tmin.getD 0))) ∧
          t.xm.read 0x0306 = wordI (held (e.tmax.getD 0) - held (f.tmin.getD 0)) ∧
          t.xm.read 0x0307 = wordN i.val ∧ t.xm.read 0x0308 = wordN j.val ∧
          t.xm.read 0x0309 =
            wordI (held ((pub.rev.table.map (·.sum)).sum / (((pub.rev.table.map (·.count)).sum : Nat) : Int)))) ∧
      t.xm.read 0x030A = (if pub.rev.valid then 1 else 0) ∧
      (∀ a, 0x030B ≤ a → a ≤ 0x030E → t.xm.read a = 0) ∧
      t = { s with
        xm := t.xm
        rn := { s.rn with notice := s.rn.notice ||| 0x10#10 }
        pt := match s.pt.waiting with
          | none => { s.pt with inFlight := none, waiting := none }
          | some r =>
            { s.pt with
              revNumber := (s.pt.revNumber + 1) % 65536
              inFlight := some ⟨(s.pt.revNumber + 1) % 65536, r⟩
              waiting := none } } ∧
      (s.LayoutInv → ∀ p : Progress, WrittenInOrder s.xm.read t.xm.read (s.memoryAt p).read publicationStage)

/-- REPORT_COMPLETION (R176): the 240 words of the report in flight stand in the report block, no other word changes, REPORT is
raised, and a report waiting begins. RECORD_COPY_COMPLETION (R150): the header and the pre-trigger snapshots, word by word (R145),
stand in the slot, the header with the post count as it then stands, and no other word changes; the copy is no longer in flight.
While either is in flight, each word reads as before or as after, in the order of writing: 0x0010 first and 0x00FF last; the header
first and then the places, the oldest snapshot first. A host read finds exchange memory so (assumptions 5 and 24). A host read that
falls with a trip, a hand-off during a capture or the close of a window finds each word of the slot and of the chronicle entry as
before or as after, in the order of the event: the entry's trip number last, READY last (R129, R131, R134, R151, R152, R159)
(assumption 28). That a report waiting takes the counts mode when its writing begins is the model's choice (assumption 26). -/
def Obligations.ReportAndRecordCopyComplete : Prop :=
  (∀ (s : State) (ws : List Word), s.rn.inFlight = some ws → ws.length = 240 →
    ∃ t, exec .reportCompletion s = .next t ∧
      (∀ a < Config.xmWords, some (t.xm.read a) =
        if 0x0010 ≤ a ∧ a ≤ 0x00FF then ws[a - 0x0010]? else some (s.xm.read a)) ∧
      (s.LayoutInv → ∀ p : Progress, WrittenInOrder s.xm.read t.xm.read (s.memoryAt p).read reportStage) ∧
      t = { s with xm := t.xm, rn := t.rn } ∧
      (s.rn.waiting = none → t.rn = { s.rn with inFlight := none, notice := s.rn.notice ||| 8#10 }) ∧
      (∀ vs, s.rn.waiting = some vs →
        ReportBegun vs { s.rn with inFlight := none, waiting := none, notice := s.rn.notice ||| 8#10 } t.rn)) ∧
  (∀ (s : State) (n : Fin 4) (j : CopyJob), s.rcu.capture = some n → s.rcu.copy = some j → j.header.length = 127 →
    j.pre.length ≤ 96 →
    ∃ t, exec .recordCopyCompletion s = .next t ∧
      (∀ a < Config.xmWords, some (t.xm.read a) =
        if a = slotStateOffset n + 14 then some (wordN s.rcu.postCount)
        else if slotStateOffset n < a ∧ a < slotStateOffset n + 128 then j.header[a - slotStateOffset n - 1]?
        else if slotStateOffset n + 128 ≤ a ∧ a < slotStateOffset n + 128 + 16 * j.pre.length then
          (j.pre[(a - slotStateOffset n - 128) / 16]?).map fun x => snapshotWord x ((a - slotStateOffset n - 128) % 16)
        else some (s.xm.read a)) ∧
      (s.LayoutInv → ∀ p : Progress, WrittenInOrder s.xm.read t.xm.read (s.memoryAt p).read (copyStage n)) ∧
      t = { s with xm := t.xm, rcu := { s.rcu with copy := none } }) ∧
  (∀ (s : State) (p : Progress) (address : Addr), s.startUp ≠ .initPowerOn → address.toNat < Config.xmWords →
    s.hostReadAt p address = (s.memoryAt p).read address.toNat) ∧
  (∀ (c : Instr) (s t : State) (p : Progress) (k : Nat), s.SlotInv → s.startUp ≠ .initPowerOn → exec c s = .next t →
    t.rc.drive = .tripped →
    let before := fun a : Nat => s.hostReadAt p (BitVec.ofNat 14 a)
    let after := fun a : Nat => t.xm.read a
    let seen := fun a : Nat => s.hostReadDuring t p k (BitVec.ofNat 14 a)
    (s.rc.drive ≠ .tripped → ∀ slot, LowestFreeSlot s.xm slot →
      WrittenInOrder before after seen (tripStage slot s.tu.nextIndex)) ∧
    (∀ n i, s.rcu.capture = some n → s.tu.openEntry = some i → t.rcu.postCount = s.rcu.postCount + 1 →
      WrittenInOrder before after seen
        (appendStage n (s.rcu.preCount + s.rcu.postCount) s.rcu.copy.isSome (decide (t.tu.openEntry = none)) i)) ∧
    (∀ i, s.rcu.capture = none → s.tu.openEntry = some i → t.tu.openEntry = none →
      WrittenInOrder before after seen fun a =>
        if a = chronicleOffset i + 4 then some 0 else if a = chronicleOffset i + 7 then some 1 else none))

/-- The copy that an URGENT STOP outside TRIPPED begins, with a free slot (R147, R149, R150, 11.5): the words of the header hold
the trip's number, cause, snapshot number, offset and prior state and the values of every block as they stand; the pre-trigger
snapshots are the newest of the ring, at most 96, oldest first. That the header has the receive states and the tracking state of
the trip is the model's choice (assumption 27). -/
def Obligations.RecordCopyHoldsTheTrip : Prop :=
  ∀ (s : State) (w : Word) (n : Fin 4), s.startUp = .ready → w.getLsbD 0 = true → w.getLsbD 2 = false →
    s.rc.drive ≠ .tripped → (s.slotWord n = 0 ∨ s.slotWord n = 3) → (∀ j < n, s.slotWord j ≠ 0 ∧ s.slotWord j ≠ 3) →
    ∃ t job, exec (.urgentStop w) s = .next t ∧ t.rcu.capture = some n ∧ t.rcu.preCount = min 96 s.rcu.fillCount ∧
      t.rcu.postCount = 0 ∧ t.rcu.copy = some job ∧ CopyHoldsTrip .urgentStop s job

/-! ### Links and regulators -/

/-- A frame on a synchronised link is discarded with a check error when it has not exactly eight bytes without a framing error or its
check differs, and as a duplicate when it repeats the last sequence; either sets the good run 0 and changes nothing else of the part
(R65). -/
def Obligations.LinkDiscardsBadAndRepeatedFrames : Prop :=
  (∀ (s : State) (ch : Chan) (frame : List RxByte), (s.link.get ch).synced = true → frame ≠ [] →
    (frame.length ≠ 8 ∨ (∃ b ∈ frame, b.framingError = true) ∨
      crc16 ((frame.map (·.data)).take 6) ≠ (frame.map (·.data)).getD 6 0 ++ (frame.map (·.data)).getD 7 0) →
    exec (.linkFrameCompletion ch frame) s = .next
      { s with
        link := s.link.set ch
          { s.link.get ch with
          goodRun := 0
          checkErrors := (s.link.get ch).checkErrors.plus 1 } }) ∧
  (∀ (s : State) (ch : Chan) (q st il ih al ah : Byte), (s.link.get ch).synced = true →
    (s.link.get ch).lastSeq = some q.toNat →
    exec (.linkFrameCompletion ch (goodFrame [q, st, il, ih, al, ah])) s = .next
      { s with
        link := s.link.set ch
          { s.link.get ch with
          goodRun := 0
          duplicates := (s.link.get ch).duplicates.plus 1 } })

/-- A good frame with a new sequence is accepted (R63, R65 to R67, R186): the link takes its values, counts the missed frames, restarts
its loss timer, and is UP with LINK at the fourth in a row. When it finds no overcurrent, no newly set FAULT and no lost READY of a
channel in service, the regulator answers (R48 to R51): an ACTIVE one by its proportional and integral terms with a RUN frame, a
BLOCKED one with a BLOCK frame; nothing else changes. -/
def Obligations.AcceptedFrameIsRegulated : Prop :=
  ∀ (s : State) (ch : Chan) (q st il ih al ah : Byte),
    let l := s.link.get ch
    let r := s.reg.get ch
    let imeas := (ih ++ il).toInt
    l.synced = true → l.lastSeq ≠ some q.toNat → (∀ p, l.lastSeq = some p → p ≤ 255) → imeas.natAbs ≤ r.ioc →
    (s.rc.isolated.get ch = true ∨
      ((st.getLsbD 1 = false ∨ l.fault = true) ∧ (s.rc.drive.live = false ∨ st.getLsbD 0 = true ∨ l.ready = false))) →
    let rises := l.rx ≠ .up ∧ 3 ≤ l.goodRun
    let answered := r.answered (s.tru.iref.get ch - imeas)
    ∃ t, exec (.linkFrameCompletion ch (goodFrame [q, st, il, ih, al, ah])) s = .next t ∧
      FrameHanded (if r.active then ⟨true, answered.lastVcmd⟩ else ⟨false, 0⟩)
        (l.accepted s.now s.tloss q st imeas (min (ah ++ al).toNat 32767)) (t.link.get ch) s.now ∧
      t = { s with
        link := s.link.set ch (t.link.get ch)
        reg := if r.active then s.reg.set ch answered else s.reg
        rn := if rises then { s.rn with notice := s.rn.notice ||| 0x100#10 } else s.rn }

/-- An accepted frame whose |Imeas| exceeds Ioc reports OVERCURRENT in every drive state, isolated or not (R47); on a channel in service
a newly set FAULT flag reports CONVERTER FAULT of kind FAULT in every drive state (R70), and a READY flag that falls in STARTING,
RUNNING or STOPPING reports kind READY LOST (R71): after each the drive is TRIPPED with the cause latched, and when the drive was not
TRIPPED the first of them in this order is first-out. Before these reports the frame is accepted and regulated as any other, but that
an overcurrent hands over a BLOCK frame and makes the last Vcmd 0 (R46, R47); each report then leaves what a first or a further cause
leaves. That READY LOST is judged by the drive state at the acceptance, and so reported also when the same frame has an overcurrent or
a FAULT, is the model's reading of R71 (assumption 11). -/
def Obligations.AcceptedFrameReportsItsCauses : Prop :=
  ∀ (s : State) (ch : Chan) (q st il ih al ah : Byte),
    let l := s.link.get ch
    let high := (s.reg.get ch).ioc < ((ih ++ il).toInt).natAbs
    let fault := s.rc.isolated.get ch = false ∧ st.getLsbD 1 = true ∧ l.fault = false
    let lost := s.rc.isolated.get ch = false ∧ s.rc.drive.live = true ∧ st.getLsbD 0 = false ∧ l.ready = true
    l.synced = true → l.lastSeq ≠ some q.toNat → high ∨ fault ∨ lost →
    ∃ t, exec (.linkFrameCompletion ch (goodFrame [q, st, il, ih, al, ah])) s = .next t ∧
      t.rc.drive = .tripped ∧
      (high → Cause.overcurrent ch ∈ t.tu.latched) ∧
      (fault → Cause.converterFault ch .fault ∈ t.tu.latched) ∧
      (lost → Cause.converterFault ch .readyLost ∈ t.tu.latched) ∧
      (s.rc.drive ≠ .tripped →
        t.tu.firstOut = some (if high then .overcurrent ch else if fault then .converterFault ch .fault
          else .converterFault ch .readyLost)) ∧
      t.cw = s.cw ∧ t.vw = s.vw ∧ t.pt = s.pt ∧
      ((∀ p, l.lastSeq = some p → p ≤ 255) →
        let r := s.reg.get ch
        let imeas := (ih ++ il).toInt
        let answered := r.answered (s.tru.iref.get ch - imeas)
        ∃ handed u v,
          FrameHanded (if ¬high ∧ r.active = true then ⟨true, answered.lastVcmd⟩ else ⟨false, 0⟩)
            (l.accepted s.now s.tloss q st imeas (min (ah ++ al).toNat 32767)) handed s.now ∧
          (let arrived := { s with
            link := s.link.set ch handed
            reg :=
              if high then s.reg.set ch { r with lastVcmd := 0 } else if r.active then s.reg.set ch answered else s.reg
            rn := if l.rx ≠ .up ∧ 3 ≤ l.goodRun then { s.rn with notice := s.rn.notice ||| 0x100#10 } else s.rn }
          (high → CauseReported (.overcurrent ch) arrived u) ∧ (¬high → u = arrived) ∧
          (fault → CauseReported (.converterFault ch .fault) u v) ∧ (¬fault → v = u) ∧
          (lost → CauseReported (.converterFault ch .readyLost) v t) ∧ (¬lost → t = v)))

/-- RECEIVER_SYNCHRONISED outside INIT makes a link receiver whose line is not held by a break, or the sensor port's, take bytes
(R60, R99); BREAK_CLEARED clears the held break (R62); TRANSMIT_COMPLETION starts the frame that waits, under the next command
sequence, or leaves the stage IDLE (R73, R74), at a time base brought up to the frame's end (assumption 4). The six bytes of a
command frame are the sequence, the mode, Vcmd low byte first, and the check of these four high byte first (R73, R186); the check
of any bytes is formed bit by bit, by the generator 0x1021 from 0xFFFF (R64). -/
def Obligations.LinesSynchroniseClearAndSend : Prop :=
  (∀ (s : State) (ch : Chan), s.startUp = .ready → (s.link.get ch).breakHeld = false →
    exec (.receiverSynchronised (.link ch)) s = .next
      { s with link := s.link.set ch { s.link.get ch with synced := true } }) ∧
  (∀ s : State, s.startUp = .ready →
    exec (.receiverSynchronised .sensor) s = .next { s with vw := { s.vw with synced := true } }) ∧
  (∀ (s : State) (ch : Chan),
    exec (.breakCleared ch) s = .next { s with link := s.link.set ch { s.link.get ch with breakHeld := false } }) ∧
  (∀ (s : State) (ch : Chan) (f : Sending), (s.link.get ch).sending = some f →
    exec (.transmitCompletion ch) s = .next
      { s with
        now := max s.now f.due
        link := s.link.set ch (match (s.link.get ch).holding with
          | none => { s.link.get ch with sending := none }
          | some c =>
            { s.link.get ch with
              sending := some ⟨commandFrame c (s.link.get ch).cmdSeq, max s.now f.due + 8⟩
              cmdSeq := ((s.link.get ch).cmdSeq + 1) % 256
              holding := none }) }) ∧
  (∀ (c : Command) (seq : Nat), c.bytes seq = commandFrame c seq) ∧
  (∀ bytes : List Byte, crc16 bytes = checkOf bytes)

/-- LINK_BREAK_DETECTED on a synchronised receiver: good run 0, break held, unsynchronised, and CONVERTER FAULT of kind BREAK unless
the channel is isolated (R62). LINK_LOSS_EXPIRY: the timer stops and the good run is 0; an UP link becomes LOST with LINK, and LINK
LOSS is reported unless the channel is isolated (R68); the time base is brought up to the expiry (assumption 4). -/
def Obligations.BreakAndLossAreReported : Prop :=
  (∀ (s : State) (ch : Chan), (s.link.get ch).synced = true →
    let u := { s with
      link := s.link.set ch { s.link.get ch with goodRun := 0, breakHeld := true, synced := false } }
    ∃ t, exec (.linkBreakDetected ch) s = .next t ∧
      (s.rc.isolated.get ch = false → CauseReported (.converterFault ch .lineBreak) u t) ∧
      (s.rc.isolated.get ch = true → t = u)) ∧
  (∀ (s : State) (ch : Chan) (due : Nat), (s.link.get ch).lossTimer = some due →
    let quiet := { s.link.get ch with lossTimer := none, goodRun := 0 }
    let lost := { s with
      now := max s.now due
      link := s.link.set ch { quiet with rx := .lost }
      rn := { s.rn with notice := s.rn.notice ||| 0x100#10 } }
    ∃ t, exec (.linkLossExpiry ch) s = .next t ∧
      ((s.link.get ch).rx = .up → s.rc.isolated.get ch = false → CauseReported (.linkLoss ch) lost t) ∧
      ((s.link.get ch).rx = .up → s.rc.isolated.get ch = true → t = lost) ∧
      ((s.link.get ch).rx ≠ .up → t = { s with now := max s.now due, link := s.link.set ch quiet }))

/-- EXTRIP_INPUT_CHANGE to another level outside INIT restarts the stability timer with its full 2 ms; during INIT the pin moves
and no timer starts; to the level that stands it is no event (assumptions 2 and 20). EXTRIP_FILTER_EXPIRY gives the filtered level
the raw level, and a change to ASSERTED reports EXTERNAL TRIP in every drive state (R135); the time base is brought up to the
expiry (assumption 4). -/
def Obligations.ExternalTripIsFiltered : Prop :=
  (∀ (s : State) (level : Bool), s.startUp = .ready → level ≠ s.tu.extRaw →
    exec (.extripInputChange level) s = .next
      { s with tu := { s.tu with extRaw := level, extTimer := some (s.now + 2000) } }) ∧
  (∀ (s : State) (level : Bool), s.startUp ≠ .ready → level ≠ s.tu.extRaw →
    exec (.extripInputChange level) s = .next { s with tu := { s.tu with extRaw := level } }) ∧
  (∀ s : State, exec (.extripInputChange s.tu.extRaw) s = .next s) ∧
  (∀ (s : State) (due : Nat), s.tu.extTimer = some due →
    let u := { s with now := max s.now due, tu := { s.tu with extTimer := none, extFiltered := s.tu.extRaw } }
    ∃ t, exec .extripFilterExpiry s = .next t ∧
      (s.tu.extRaw = true → s.tu.extFiltered = false → CauseReported .externalTrip u t) ∧
      (¬(s.tu.extRaw = true ∧ s.tu.extFiltered = false) → t = u))

/-! ### The vibration watch -/

/-- Sample frames that are not taken at once (R99, R100, R101, R103, R104): on a synchronised port a frame of other than 20 bytes, with
a framing error or with a wrong check is discarded with a check error, and one that repeats the last sequence without a count, each
setting the good run 0; an accepted frame takes the sequence, counts the missed frames, restarts the loss timer, and brings the port UP
with LINK at the fourth in a row; then it waits while the unit is EVALUATING, or, with three waiting already, it is discarded as a gap
and every enabled channel's block is gapped. PORT_LOSS_EXPIRY (R101, R102, R119): the timer stops and the good run is 0; an UP port
becomes LOST with LINK, the blocks in progress of the enabled channels are emptied with their stuck runs and last raw samples, the
waiting frames are dropped, the quiet time is 0, and BLIND is established while the drive runs, with DERATE by its kind and edge; the
time base is brought up to the expiry (assumption 4). -/
def Obligations.SensorPortDiscardsQueuesAndIsLost : Prop :=
  (∀ (s : State) (frame : List RxByte), s.vw.synced = true → frame ≠ [] →
    (frame.length ≠ 20 ∨ (∃ b ∈ frame, b.framingError = true) ∨
      crc16 ((frame.map (·.data)).take 18) ≠ (frame.map (·.data)).getD 18 0 ++ (frame.map (·.data)).getD 19 0) →
    exec (.sampleFrameCompletion frame) s = .next
      { s with vw := { s.vw with goodRun := 0, checkErrors := s.vw.checkErrors.plus 1 } }) ∧
  (∀ (s : State) (q : Byte) (rest : List Byte), s.vw.synced = true → rest.length = 17 → s.vw.lastSeq = some q.toNat →
    exec (.sampleFrameCompletion (goodFrame (q :: rest))) s = .next { s with vw := { s.vw with goodRun := 0 } }) ∧
  (∀ (s : State) (q : Byte) (rest : List Byte), s.vw.synced = true → rest.length = 17 → s.vw.lastSeq ≠ some q.toNat →
    (∀ p, s.vw.lastSeq = some p → p ≤ 255) → s.vw.evaluation.isSome = true ∨ 3 ≤ s.vw.fifo.length →
    exec (.sampleFrameCompletion (goodFrame (q :: rest))) s = .next
      { s with
        vw :=
          if 3 ≤ s.vw.fifo.length then
            { s.vw.accepted s.now q.toNat with
              gaps := s.vw.gaps.plus 1
              channels := s.vw.channels.map fun c => if c.level = .disabled then c else { c with gapped := true } }
          else { s.vw.accepted s.now q.toNat with fifo := s.vw.fifo ++ [sampleOf (q :: rest)] }
        rn :=
          if s.vw.rx ≠ .up ∧ 3 ≤ s.vw.goodRun then { s.rn with notice := s.rn.notice ||| 0x100#10 } else s.rn }) ∧
  (∀ (s : State) (due : Nat), s.vw.lossTimer = some due →
      let blind := s.rc.drive.live = true ∧ s.vw.derate ≠ .blind
      let told := blind ∧ (s.vw.derate = .none ∨ s.rn.derateAny = true)
      exec .portLossExpiry s = .next
        (if s.vw.rx = .up then
          { s with
            now := max s.now due
            rn := { s.rn with
              notice := if told then s.rn.notice ||| 0x100#10 ||| 0x20#10 else s.rn.notice ||| 0x100#10 }
            vw := { s.vw with
              lossTimer := none, goodRun := 0, rx := .lost, fifo := [], quietTime := 0
              derate := if s.rc.drive.live then .blind else s.vw.derate
              channels := s.vw.channels.map fun c =>
                if c.level = .disabled then c
                else
                  { c with
                    sumSq := 0, peak := 0, count := 0, gapped := false, faultSeen := false, stuck := 0, lastRaw := none } } }
        else { s with now := max s.now due, vw := { s.vw with lossTimer := none, goodRun := 0 } }))

/-- An accepted sample frame that the COLLECTING unit takes at once (R103, R105 to R109, R115, R119): every enabled channel corrects its
sample by the offset, moves the offset, adds to its block, and is tested for stuck and bias; a bad sample of a channel not in FAULT
enters FAULT with the counters 0, LEVEL and the quiet time 0, and BLIND when it is trip-enabled while the drive runs; the largest
magnitudes of the channels of each group not in FAULT raise the sector's peaks; blocks of N samples are latched, begun anew and
evaluated for 20 µs a channel enabled; nothing else changes but what the acceptance itself moves (R100, R101): the sequence, the
missed frames, the loss timer, the good run, and UP with LINK at the fourth frame in a row. -/
def Obligations.TakenSampleFrameMovesTheChannels : Prop :=
  ∀ (s : State) (q : Byte) (rest : List Byte), s.vw.synced = true → rest.length = 17 → s.vw.lastSeq ≠ some q.toNat →
    (∀ p, s.vw.lastSeq = some p → p ≤ 255) → s.vw.evaluation = none → s.vw.fifo = [] →
    let accepted := { s with
      vw := s.vw.accepted s.now q.toNat
      rn := if s.vw.rx ≠ .up ∧ 3 ≤ s.vw.goodRun then { s.rn with notice := s.rn.notice ||| 0x100#10 } else s.rn }
    ∃ t, exec (.sampleFrameCompletion (goodFrame (q :: rest))) s = .next t ∧ FrameTaken (sampleOf (q :: rest)) accepted t

/-- EVALUATION_END judges the latched blocks (R110 to R115): a gapped or dropped block changes nothing of its channel; one of a channel
in FAULT gives RMS and peak, and without the fault-seen mark takes the channel to QUIET with its counters 0; any other gives RMS, or
the injected value in its place, and peak, moves the counters by the class of R113 and the level by the first row of R114. The time
base is brought up to the end of the evaluation (assumption 4). -/
def Obligations.EvaluationJudgesItsBlocks : Prop :=
  ∀ (s : State) (e : Evaluation) (i : Fin 8), s.vw.evaluation = some e → s.vw.fifo = [] →
    (e.latched.map (·.channel)).Nodup →
    let c := s.vw.channels.get i
    ∃ t, exec .evaluationEnd s = .next t ∧ t.vw.evaluation = none ∧ t.now = max s.now e.due ∧
      ((∀ l ∈ e.latched, l.channel = i → l.gapped = true ∨ l.dropped = true) → t.vw.channels.get i = c) ∧
      (∀ l ∈ e.latched, l.channel = i → l.gapped = false → l.dropped = false →
        let computed := min (Nat.sqrt (l.sumSq / l.n)) 32767
        (c.level = .fault → t.vw.channels.get i =
          if l.faultSeen then { c with lastRms := computed, lastPeak := l.peak }
          else { c with lastRms := computed, lastPeak := l.peak, level := .quiet, up := 0, dn := 0, low := 0, below := 0 }) ∧
        (c.level ≠ .fault →
          let rms := (c.injection.map (·.value)).getD computed
          let high2 := c.dangerLevel ≤ rms
          let high := high2 ∨ c.alertLevel ≤ rms
          let isLow := ¬high ∧ rms < c.alertLevel - c.hysteresis
          let up := if high then min (c.up + 1) 65535 else 0
          let dn := if high2 then min (c.dn + 1) 65535 else 0
          let low := if isLow then min (c.low + 1) 65535 else 0
          let below := if high2 then 0 else min (c.below + 1) 65535
          t.vw.channels.get i =
            { c with
              lastRms := rms, lastPeak := l.peak, up := up, dn := dn, low := low, below := below
              injection := c.injection.bind fun j => if j.count ≤ 1 then none else some { j with count := j.count - 1 }
              level :=
                if (c.level = .quiet ∨ c.level = .alert) ∧ s.vw.pd ≤ dn then .danger
                else if c.level = .quiet ∧ s.vw.pa ≤ up then .alert
                else if c.level = .danger ∧ s.vw.pcl ≤ below then .alert
                else if c.level = .alert ∧ s.vw.pcl ≤ low then .quiet
                else c.level }))

/-- EVALUATION_END moves derate and reports DANGER (R110, R116, R118, R120): an evaluation with a block that is neither gapped nor
dropped moves the alert time by the channels in ALERT or DANGER, establishes ALERT at Ld from NONE, moves the quiet time by the
quiet condition, and releases derate at Lr; the unit is COLLECTING again, and its settings, its port and its error counts are kept.
Each trip-enabled channel that has entered DANGER while the drive runs reports VIBRATION DANGER, in channel order, and leaves what
a first or a further cause leaves (R128 to R132, R147 to R150); nothing else of the part changes. LEVEL is raised for a channel
that enters ALERT or DANGER and, under ANY, for one that falls to QUIET; DERATE for an establishment and, under ANY, for a release;
no other notice but TRIP by such a report (R117, R122, R182). The frames that wait are then taken in order, until one begins an
evaluation (R103, R110). The time base is brought up to the end of the evaluation (assumption 4). -/
def Obligations.EvaluationMovesDerateAndTrips : Prop :=
  (∀ (s : State) (e : Evaluation), s.vw.evaluation = some e →
    ∃ u t, exec .evaluationEnd { s with vw := { s.vw with fifo := [] } } = .next u ∧ exec .evaluationEnd s = .next t ∧
      FramesTaken s.vw.fifo u t) ∧
  ∀ (s : State) (e : Evaluation), s.vw.evaluation = some e → s.vw.fifo = [] →
    ∃ t u, exec .evaluationEnd s = .next t ∧
      t.vw = { s.vw with
        channels := t.vw.channels, derate := t.vw.derate, alertTime := t.vw.alertTime, quietTime := t.vw.quietTime
        evaluation := none } ∧
      u = { s with now := max s.now e.due, vw := t.vw, rn := { s.rn with notice := u.rn.notice } } ∧
      (let effective := ∃ l ∈ e.latched, l.gapped = false ∧ l.dropped = false
       let alarmed := ∃ i, (t.vw.channels.get i).level = .alert ∨ (t.vw.channels.get i).level = .danger
       let allQuiet := s.vw.rx = .up ∧ ∀ i, (t.vw.channels.get i).level = .disabled ∨ (t.vw.channels.get i).level = .quiet
       let alert := if alarmed then min (s.vw.alertTime + 1) 65535 else 0
       let established := s.vw.derate = .none ∧ s.vw.ld ≤ alert
       let quiet := min (s.vw.quietTime + 1) 65535
       (¬effective → t.vw.alertTime = s.vw.alertTime ∧ t.vw.derate = s.vw.derate ∧ t.vw.quietTime = s.vw.quietTime ∧
         t.vw.channels = s.vw.channels) ∧
       (effective → (e.latched.map (·.channel)).Nodup →
         t.vw.alertTime = alert ∧
         (s.vw.derate = .none → ¬established → t.vw.derate = .none) ∧
         (established → ¬allQuiet → t.vw.derate = .alert ∧ t.vw.quietTime = 0) ∧
         (s.vw.derate ≠ .none → ¬allQuiet → t.vw.derate = s.vw.derate ∧ t.vw.quietTime = 0) ∧
         (s.vw.derate ≠ .none → allQuiet → quiet < s.vw.lr → t.vw.derate = s.vw.derate ∧ t.vw.quietTime = quiet) ∧
         (s.vw.derate ≠ .none → allQuiet → s.vw.lr ≤ quiet → t.vw.derate = .none ∧ t.vw.quietTime = 0))) ∧
      (let danger := fun i : Fin 8 => s.rc.drive.live = true ∧ (s.vw.channels.get i).level ≠ .danger ∧
         (t.vw.channels.get i).level = .danger ∧ (t.vw.channels.get i).tripEnable = true
       (∀ i, danger i → t.rc.drive = .tripped ∧ .vibrationDanger i ∈ t.tu.latched) ∧
       (∀ i, danger i → (∀ j < i, ¬danger j) → t.tu.firstOut = some (.vibrationDanger i)) ∧
       CausesReported ((sensorNumbers.filter fun i => decide (danger i)).map .vibrationDanger) u t ∧
       ((e.latched.map (·.channel)).Nodup → 1 ≤ s.vw.ld → ∀ k < 10,
         (u.rn.notice.getLsbD k = true ↔
           s.rn.notice.getLsbD k = true ∨
           (k = 6 ∧ ∃ i, (t.vw.channels.get i).level ≠ (s.vw.channels.get i).level ∧
             ((t.vw.channels.get i).level ≠ .quiet ∨ s.rn.levelAny = true)) ∨
           (k = 5 ∧ t.vw.derate ≠ s.vw.derate ∧ (t.vw.derate ≠ .none ∨ s.rn.derateAny = true)))))

/-! ### The torque reference unit -/

/-- TRU_PERIOD_EXPIRY (R19, R35, R36, R144): the timer restarts with the period in force; a snapshot of the values as they stand,
under the next number, goes into its place of the ring, every other place being kept; in RUNNING, and in no other state, the
measured total is folded into the entry of the present sector. The torque unit's settings are kept (R38 to R40, R56). A period
without a trip keeps the links and the regulators; one without a capture, an OPEN window or a trip keeps exchange memory, the
links, the regulators, the trip unit and all else but the torque unit's values, the stop-hold timer, the ring, the fold and the
notice STALE. The snapshot's Pc and holdback limits are the model's choice (assumptions 23 and 25); the time base is brought up to
the expiry (assumption 4). -/
def Obligations.TruExpiryTakesASnapshotAndFolds : Prop :=
  ∀ (s : State) (due : Nat), s.tru.timer = some due →
    let now := max s.now due
    let number := (s.tru.snapNumber + 1) % 65536
    let place := (number + 65535) % 65536 % 256
    let m := s.link.a.imeas + s.link.b.imeas
    ∃ t x, exec .truPeriodExpiry s = .next t ∧ t.now = now ∧ t.tru.timer = some (now + s.tru.period) ∧
      t.tru.snapNumber = number ∧
      t.tru = { s.tru with
        timer := t.tru.timer, phase := t.tru.phase, unchanged := t.tru.unchanged, lastSeq := t.tru.lastSeq
        tdem := t.tru.tdem, tcmd := t.tru.tcmd, iref := t.tru.iref, lim := t.tru.lim, lneg := t.tru.lneg
        excessCount := t.tru.excessCount, imbCount := t.tru.imbCount, snapNumber := t.tru.snapNumber
        staleEntries := t.tru.staleEntries } ∧
      ringAt t.rcu.ring place = some x ∧
      (∀ p, p ≠ place → ringAt t.rcu.ring p = ringAt s.rcu.ring p) ∧
      t.rcu.fillCount = min (s.rcu.fillCount + 1) 256 ∧ t.rcu.lastHandoff = now ∧
      (x.number = number ∧ x.drive = s.rc.drive ∧ x.phase = t.tru.phase ∧ x.derate = s.vw.derate ∧
        x.isolated = s.rc.isolated ∧ x.tdem = t.tru.tdem ∧ x.lim = t.tru.lim ∧ x.lneg = t.tru.lneg ∧
        (t.rc.drive = s.rc.drive → x.tcmd = t.tru.tcmd ∧ x.iref = t.tru.iref) ∧
        x.imeas = ⟨s.link.a.imeas, s.link.b.imeas⟩ ∧ x.vcmd = ⟨s.reg.a.lastVcmd, s.reg.b.lastVcmd⟩ ∧
        x.speed = s.pt.speed ∧ x.pc = s.pt.pc ∧ x.sector = s.pt.sector ∧ x.tracking = s.pt.tracking ∧
        (∀ i, x.levels.get i = (s.vw.channels.get i).level) ∧
        (let counted := fun i => (s.vw.channels.get i).level ≠ .disabled ∧ (s.vw.channels.get i).level ≠ .fault
         (∀ i, counted i → (s.vw.channels.get i).lastRms ≤ x.worstRms) ∧
         ((∃ i, counted i ∧ (s.vw.channels.get i).lastRms = x.worstRms) ∨ x.worstRms = 0))) ∧
      (∀ j : Nat, t.pt.table[j]? = (s.pt.table[j]?).map fun e =>
        if j = s.pt.sector ∧ s.rc.drive = .running then
          (if e.count < 65535 then
            { e with
              count := e.count + 1
              sum := e.sum + m
              tmax := some ((e.tmax.map fun v => max v m).getD m)
              tmin := some ((e.tmin.map fun v => min v m).getD m) }
          else { e with countFull := true })
        else e) ∧
      t.pt = { s.pt with table := t.pt.table } ∧ t.vw = s.vw ∧ t.cw = s.cw ∧ t.pending = s.pending ∧
      (t.rc.drive = s.rc.drive → t.link = s.link ∧ t.reg = s.reg ∧ t.tloss = s.tloss) ∧
      (t.rc.drive = s.rc.drive → s.rcu.capture = none → s.tu.window = none →
        t = { s with
          now := now
          rc := { s.rc with stopHold := t.rc.stopHold }
          tru := t.tru
          pt := { s.pt with table := t.pt.table }
          rcu := { s.rcu with ring := t.rcu.ring, fillCount := t.rcu.fillCount, lastHandoff := now }
          rn := { s.rn with notice := t.rn.notice } } ∧
        ∀ i < 10, i ≠ 7 → t.rn.notice.getLsbD i = s.rn.notice.getLsbD i)

/-- TRU_PERIOD_EXPIRY moves the demand phase by the table of R21, from the sequence and TD in words 0 and 1; the first computation takes
the sequence and counts as unchanged (R20); Tdem follows the phase (R22); an entry into staleness raises STALE and is counted. -/
def Obligations.DemandPhaseFollowsTheSequence : Prop :=
  ∀ (s : State) (due : Nat), s.tru.timer = some due →
    let seq := (s.xm.read 0).toNat
    let changed := s.tru.lastSeq ≠ none ∧ s.tru.lastSeq ≠ some seq
    let n := min (s.tru.unchanged + 1) 65535
    let zero := s.tru.phase ≠ .zeroing ∧ s.tru.sd + s.tru.hs ≤ n
    let stale := ¬changed ∧ s.tru.phase = .fresh ∧ (zero ∨ s.tru.sd ≤ n)
    ∃ t, exec .truPeriodExpiry s = .next t ∧
      t.tru.lastSeq = some seq ∧
      t.tru.unchanged = (if changed then 0 else n) ∧
      t.tru.phase =
        (if changed then .fresh else if zero then .zeroing else if s.tru.phase = .fresh ∧ s.tru.sd ≤ n then .hold
          else s.tru.phase) ∧
      t.tru.tdem = (if changed then (s.xm.read 1).toInt else if zero then 0 else s.tru.tdem) ∧
      t.tru.staleEntries = (if stale then s.tru.staleEntries.plus 1 else s.tru.staleEntries) ∧
      (stale → t.rn.notice.getLsbD 7 = true) ∧
      (¬stale → t.rn.notice.getLsbD 7 = s.rn.notice.getLsbD 7)

/-- TRU_PERIOD_EXPIRY (R23 to R31): the limits of each channel from the break-away limit or the envelope, the availability, the derate
factor and isolation; Tcmd toward the target by at most the ramp and within the totals, 0 at rest; the references by the share, each
within its channel's limits with the excess on the other, their sum Tcmd; all 0 when the computation's watch has tripped the drive; in
STOPPING the stop-hold condition is evaluated with this Tcmd (R10), at a time base brought up to the expiry (assumption 4). -/
def Obligations.TorqueIsLimitedRampedAndShared : Prop :=
  ∀ (s : State) (due : Nat), s.tru.timer = some due → s.tru.envelope.Pairwise (fun x y => x.1 < y.1) →
    let cut := fun (ch : Chan) (base : Int) =>
      let capped := min base ((s.link.get ch).iavail : Int)
      if s.rc.isolated.get ch then 0 else if s.vw.derate = .none then capped else capped * (s.vw.d : Int) / 4096
    let lim := fun ch => cut ch
      (if s.rc.drive = .starting then (s.tru.lba.get ch : Int) else envelopeValue s.tru.envelope s.pt.speed.natAbs)
    let lneg := fun ch => cut ch (s.tru.lnegCfg.get ch)
    let pos := lim .a + lim .b
    let neg := lneg .a + lneg .b
    let within := fun lo hi x : Int => max lo (min hi x)
    ∃ t, exec .truPeriodExpiry s = .next t ∧
      (∀ ch, t.tru.lim.get ch = lim ch ∧ t.tru.lneg.get ch = lneg ch) ∧
      (let target := if s.rc.drive = .starting ∨ s.rc.drive = .running then within (-neg) pos t.tru.tdem else 0
       let ramp : Int := if s.rc.drive = .stopping then s.tru.stopRamp else s.tru.runRamp
       let tcmd := if s.rc.drive.live then
           within (-neg) pos (s.tru.tcmd + within (-ramp) ramp (target - s.tru.tcmd))
         else 0
       let first := within (-(lneg .a)) (lim .a) ((tcmd * (s.tru.share : Int) + 2048) / 4096)
       let second := within (-(lneg .b)) (lim .b) (tcmd - first)
       (t.rc.drive = s.rc.drive → t.tru.tcmd = tcmd ∧ t.tru.iref = ⟨tcmd - second, second⟩ ∧
         (s.rc.drive = .stopping → t.rc.stopHold =
           if tcmd = 0 ∧ s.pt.speed.natAbs ≤ s.rc.creep then
             some (s.rc.stopHold.getD (max s.now due + s.rc.stopHoldTime * 1000))
           else none)) ∧
       (t.rc.drive ≠ s.rc.drive → t.rc.drive = .tripped ∧ t.tru.tcmd = 0 ∧ t.tru.iref = ⟨0, 0⟩))

/-- TRU_PERIOD_EXPIRY evaluates the watches in STARTING, RUNNING and STOPPING (R32 to R34), with the limits, totals and references
of the same computation: a condition that holds counts, and the count reaching its persistence trips the drive, TORQUE EXCESS
before PINION IMBALANCE; otherwise the drive stays and the counts stand. The report comes behind the snapshot hand-off and the
sector fold, and leaves what a first or a further cause leaves of the state they leave: the chronicle entry, the slot, the copy and
the BLOCK frames among it (R11, R76, R128 to R132, R147 to R150). The time base is brought up to the expiry (assumption 4). -/
def Obligations.WatchesCountAndTrip : Prop :=
  ∀ (s : State) (due : Nat), s.tru.timer = some due → s.rc.drive.live = true →
    let now := max s.now due
    let u := s.readDemand.computeTorque
    let m := s.link.a.imeas + s.link.b.imeas
    let excess := if 0 ≤ m then u.tru.lim.a + u.tru.lim.b + s.tru.margin < m
      else u.tru.lneg.a + u.tru.lneg.b + s.tru.margin < -m
    let gap := (s.link.a.imeas - u.tru.iref.a) - (s.link.b.imeas - u.tru.iref.b)
    let uneven := s.rc.isolated.a = false ∧ s.rc.isolated.b = false ∧ (s.tru.imbThreshold : Int) < |gap|
    let tooMuch := excess ∧ s.tru.pte ≤ s.tru.excessCount + 1
    let apart := uneven ∧ s.tru.pim ≤ s.tru.imbCount + 1
    ∃ v t, exec .truPeriodExpiry s = .next t ∧
      v.tru = { s.tru with
        timer := some (now + s.tru.period), phase := t.tru.phase, unchanged := t.tru.unchanged, lastSeq := t.tru.lastSeq
        tdem := t.tru.tdem, tcmd := u.tru.tcmd, iref := u.tru.iref, lim := u.tru.lim, lneg := u.tru.lneg
        excessCount := if excess then s.tru.excessCount + 1 else 0
        imbCount := if uneven then s.tru.imbCount + 1 else 0
        snapNumber := (s.tru.snapNumber + 1) % 65536, staleEntries := t.tru.staleEntries } ∧
      v.rc = { s.rc with
        stopHold :=
          if s.rc.drive = .stopping then
            if u.tru.tcmd = 0 ∧ s.pt.speed.natAbs ≤ s.rc.creep then
              some (s.rc.stopHold.getD (now + s.rc.stopHoldTime * 1000))
            else none
          else s.rc.stopHold } ∧
      (s.rcu.capture = none → s.tu.window = none →
        v = { s with
          now := now
          rc := v.rc
          tru := v.tru
          pt := { s.pt with table := t.pt.table }
          rcu := { s.rcu with ring := t.rcu.ring, fillCount := t.rcu.fillCount, lastHandoff := now }
          rn := { s.rn with notice := v.rn.notice } } ∧
        ∀ i < 10, i ≠ 7 → v.rn.notice.getLsbD i = s.rn.notice.getLsbD i) ∧
      CausesReported ((if tooMuch then [.torqueExcess] else []) ++ if apart then [.pinionImbalance] else []) v t ∧
      (tooMuch → t.rc.drive = .tripped ∧ t.tu.firstOut = some .torqueExcess) ∧
      (apart → t.rc.drive = .tripped ∧ .pinionImbalance ∈ t.tu.latched) ∧
      (apart → ¬tooMuch → t.tu.firstOut = some .pinionImbalance) ∧
      (¬tooMuch → ¬apart → t.rc.drive = s.rc.drive ∧
        t.tru.excessCount = (if excess then s.tru.excessCount + 1 else 0) ∧
        t.tru.imbCount = (if uneven then s.tru.imbCount + 1 else 0))

/-- TRU_PERIOD_EXPIRY in TRIPPED with the window OPEN (R133, R134, R151, R152). With a capture, the snapshot goes, word by word (R145),
into the slot behind those already there, and the post count into its header, unless the copy is in flight and writes it at its own
completion; the window's count advances, and at 24 it closes: the chronicle entry gets the cause count and loses WINDOW OPEN, the
record gets the cause list, its count and READY, the capture and the open entry are none, and RECORD is raised. Of a trip without a
free slot (R148) the window counts and closes alike, with the entry alone rewritten, and RECORD is not raised. No other word of
exchange memory changes. That no copy is in flight at the 24th count rests on its 200 µs (assumption 5). -/
def Obligations.WindowCountsAndCloses : Prop :=
  ∀ (s : State) (due k : Nat) (i : Fin 32), s.tru.timer = some due → s.rc.drive = .tripped →
    s.tu.window = some k → k ≤ 23 → s.tu.openEntry = some i → s.tu.causeList.length ≤ 8 →
    let entry := chronicleOffset i
    (∀ n : Fin 4, s.rcu.capture = some n → s.rcu.preCount + s.rcu.postCount ≤ 119 →
      let base := slotStateOffset n
      let place := base + 128 + 16 * (s.rcu.preCount + s.rcu.postCount)
      ∃ t x, exec .truPeriodExpiry s = .next t ∧
        ringAt t.rcu.ring ((t.tru.snapNumber + 65535) % 65536 % 256) = some x ∧ t.rcu.postCount = s.rcu.postCount + 1 ∧
        (k < 23 → t.tu = { s.tu with window := some (k + 1) } ∧ t.rcu.capture = some n ∧ t.rcu.copy = s.rcu.copy ∧
          ∀ a < Config.xmWords, t.xm.read a =
            if place ≤ a ∧ a < place + 16 then snapshotWord x (a - place)
            else if s.rcu.copy = none ∧ a = base + 14 then wordN (s.rcu.postCount + 1)
            else s.xm.read a) ∧
        (k = 23 → s.rcu.copy = none → t.tu = { s.tu with window := none, openEntry := none } ∧ t.rcu.capture = none ∧
          t.rn.notice.getLsbD 2 = true ∧
          ∀ a < Config.xmWords, t.xm.read a =
            if place ≤ a ∧ a < place + 16 then snapshotWord x (a - place)
            else if a = base then 2
            else if a = base + 14 then wordN (s.rcu.postCount + 1)
            else if a = base + 15 then wordN s.tu.causeList.length
            else if base + 16 ≤ a ∧ a < base + 32 then
              ((s.tu.causeList[(a - base - 16) / 2]?).map fun c =>
                if (a - base) % 2 = 0 then wordN c.code else wordN c.detail).getD 0
            else if a = entry + 4 then wordN s.tu.causeList.length
            else if a = entry + 7 then s.xm.read a &&& 0x7FFF#16
            else s.xm.read a)) ∧
    (s.rcu.capture = none →
      ∃ t, exec .truPeriodExpiry s = .next t ∧ t.rcu.capture = none ∧ t.rcu.postCount = s.rcu.postCount ∧
        t.rn.notice.getLsbD 2 = s.rn.notice.getLsbD 2 ∧
        (k < 23 → t.tu = { s.tu with window := some (k + 1) } ∧ t.xm = s.xm) ∧
        (k = 23 → t.tu = { s.tu with window := none, openEntry := none } ∧
          ∀ a < Config.xmWords, t.xm.read a =
            if a = entry + 4 then wordN s.tu.causeList.length
            else if a = entry + 7 then s.xm.read a &&& 0x7FFF#16
            else s.xm.read a))

/-- The envelope value (R24): L0 up to the first breakpoint, the last L from the last breakpoint on, and between two breakpoints the
floor of the line between them. -/
def Obligations.EnvelopeValueByTheTable : Prop :=
  ∀ (points : List (Nat × Nat)) (v : Nat), points.Pairwise (fun x y => x.1 < y.1) →
    (∀ p, points.head? = some p → v ≤ p.1 → envelopeValue points v = p.2) ∧
    (∀ p, points.getLast? = some p → p.1 ≤ v → envelopeValue points v = p.2) ∧
    (∀ (i : Nat) (p q : Nat × Nat), points[i]? = some p → points[i + 1]? = some q → p.1 ≤ v → v < q.1 →
      envelopeValue points v = p.2 + ((q.2 : Int) - p.2) * ((v : Int) - p.1) / ((q.1 : Int) - p.1))
end

