-- ==== Sys2Proof/Laws/Arith.lean ====
section
/-! SUPPORT. The clamps, counters and square root, the serial frames, and the torque limits and references, said once each. -/

namespace Sys2Proof.Machine

/-! ### Clamps and counters -/

/-- Clamp(x, lo, hi) is x between the ends, and the nearer end outside them (00, "Clamping and saturation"). -/
theorem clamp_eq {x lo hi : Int} (h : lo ≤ hi) : clamp x lo hi = max lo (min hi x) := by
  unfold clamp; split
  · omega
  · split <;> omega

/-- A clamped value lies between the ends. -/
theorem clamp_mem {x lo hi : Int} (h : lo ≤ hi) : lo ≤ clamp x lo hi ∧ clamp x lo hi ≤ hi := by
  rw [clamp_eq h]; omega

/-- Counting as the statements write it. -/
theorem Counter.add_eq_plus (c : Counter) (k : Nat) : c.add k = c.plus k := rfl

/-- Frames missed between two sequences, modulo 256 (R65, R100). -/
theorem missedBetween_some (p seq : Nat) (hp : p ≤ 255) (hs : seq ≤ 255) :
    missedBetween (some p) seq = (((seq : Int) - p - 1) % 256).toNat := by
  simp only [missedBetween]; omega

/-! ### The square root (R111) -/

/-- The search for the root keeps r * r ≤ n < (r + 2 ^ b) * (r + 2 ^ b). -/
theorem isqrtFrom_spec (n b r : Nat) (h1 : r * r ≤ n) (h2 : n < (r + 2 ^ b) * (r + 2 ^ b)) :
    isqrtFrom n b r * isqrtFrom n b r ≤ n ∧ n < (isqrtFrom n b r + 1) * (isqrtFrom n b r + 1) := by
  induction b generalizing r with
  | zero => exact ⟨h1, by simpa [isqrtFrom] using h2⟩
  | succ b ih =>
    simp only [isqrtFrom]
    have hpow : r + 2 ^ (b + 1) = r + 2 ^ b + 2 ^ b := by rw [pow_succ]; omega
    rw [hpow] at h2
    split
    · exact ih _ ‹_› h2
    · exact ih _ h1 (by omega)

/-- The root of a value below 2 ^ 48. -/
theorem isqrt_eq_sqrt {n : Nat} (h : n < 2 ^ 48) : isqrt n = Nat.sqrt n := by
  have hs := isqrtFrom_spec n 24 0 (by simp) (by simpa using h)
  exact (Nat.eq_sqrt.2 ⟨hs.1, hs.2⟩)

/-- The search never falls below its start. -/
theorem isqrtFrom_large (n b r : Nat) (h : (r + 2 ^ b) * (r + 2 ^ b) ≤ n) : r + 2 ^ b ≤ isqrtFrom n b r + 1 := by
  induction b generalizing r with
  | zero => simp [isqrtFrom]
  | succ b ih =>
    have hpow : r + 2 ^ (b + 1) = r + 2 ^ b + 2 ^ b := by rw [pow_succ]; omega
    rw [hpow] at h ⊢
    have h2 : (r + 2 ^ b) * (r + 2 ^ b) ≤ n := le_trans (Nat.mul_le_mul (Nat.le_add_right _ _) (Nat.le_add_right _ _)) h
    simp only [isqrtFrom, if_pos h2]
    exact ih _ h

/-- An RMS is the root of the mean square, limited to 32767, for every value (R111). -/
theorem min_isqrt (n : Nat) : min (isqrt n) 32767 = min (Nat.sqrt n) 32767 := by
  by_cases h : n < 2 ^ 48
  · rw [isqrt_eq_sqrt h]
  · have h1 : 2 ^ 24 ≤ Nat.sqrt n := Nat.le_sqrt.2 (by norm_num at h ⊢; exact h)
    have h2 : 0 + 2 ^ 24 ≤ isqrt n + 1 := isqrtFrom_large n 24 0 (by norm_num at h ⊢; exact h)
    have h3 : (2 : Nat) ^ 24 = 16777216 := by norm_num
    omega

/-! ### Serial frames (R64, R186) -/

/-- Two bytes put together: the first is the more significant. -/
theorem toNat_bytes (hi lo : Byte) : (hi ++ lo).toNat = hi.toNat * 256 + lo.toNat := by
  rw [BitVec.toNat_append, ← Nat.shiftLeft_add_eq_or_of_lt lo.isLt, Nat.shiftLeft_eq]

/-- A check field, high byte first. -/
theorem beWord_eq (bytes : List Byte) (i : Nat) : beWord bytes i = byteAt bytes i ++ byteAt bytes (i + 1) := by
  unfold beWord wordN
  apply BitVec.eq_of_toNat_eq
  have h1 := (byteAt bytes i).isLt
  have h2 := (byteAt bytes (i + 1)).isLt
  rw [BitVec.toNat_ofNat, toNat_bytes]
  omega

/-- A value of two bytes, low byte first. -/
theorem leValue_eq (bytes : List Byte) (i : Nat) : leValue bytes i = (byteAt bytes (i + 1) ++ byteAt bytes i).toNat := by
  rw [toNat_bytes]; unfold leValue; omega

/-- A signed value of two bytes, low byte first. -/
theorem leSigned_eq (bytes : List Byte) (i : Nat) : leSigned bytes i = (byteAt bytes (i + 1) ++ byteAt bytes i).toInt := by
  unfold leSigned wordN
  rw [leValue_eq, BitVec.ofNat_toNat]; simp

/-- A frame of some bytes with their own check passes tests 1 and 2 (R65, R100). -/
theorem checkedFrame_goodFrame (body : List Byte) :
    checkedFrame (body.length + 2) (goodFrame body) =
      some (body ++ [(crc16 body).extractLsb' 8 8, (crc16 body).extractLsb' 0 8]) := by
  have hcrc : ∀ w : Word, w.extractLsb' 8 8 ++ w.extractLsb' 0 8 = w := by
    intro w; apply BitVec.eq_of_getLsbD_eq; intro i hi
    simp only [BitVec.getLsbD_append, BitVec.getLsbD_extractLsb']
    by_cases h : i < 8
    · simp [h]
    · have h2 : i - 8 < 8 := by omega
      have h3 : 8 + (i - 8) = i := by omega
      simp [h, h2, h3]
  unfold checkedFrame goodFrame
  rw [if_pos ⟨by simp, by simp⟩]
  simp only [List.map_map, Function.comp_def, List.map_id', Nat.add_sub_cancel, List.take_left']
  rw [if_pos]
  rw [beWord_eq]
  simp [byteAt, hcrc]

/-! ### Limits and references (R23 to R30) -/

/-- The envelope of a table with ascending speeds gives no negative value (R24). -/
theorem envelopeValue_nonneg : ∀ (points : List (Nat × Nat)) (v : Nat), points.Pairwise (fun x y => x.1 < y.1) →
    0 ≤ envelopeValue points v
  | [], _, _ => by simp [envelopeValue]
  | [(_, l)], _, _ => by simp [envelopeValue]
  | (s0, l0) :: (s1, l1) :: rest, v, h => by
    have h1 : s0 < s1 := (List.pairwise_cons.1 h).1 (s1, l1) (by simp)
    have hr := envelopeValue_nonneg ((s1, l1) :: rest) v (List.pairwise_cons.1 h).2
    simp only [envelopeValue]
    split
    · omega
    · split
      · rename_i hlo hhi
        have hd : (0 : Int) < (s1 : Int) - s0 := by omega
        have key : -(l0 : Int) * ((s1 : Int) - s0) ≤ ((l1 : Int) - l0) * ((v : Int) - s0) := by
          have a1 : (0 : Int) ≤ (v : Int) - s0 := by omega
          have a2 : (v : Int) - s0 ≤ (s1 : Int) - s0 := by omega
          nlinarith
        have := (Int.le_ediv_iff_mul_le hd).2 key
        omega
      · exact hr

/-- The references of a Tcmd within the totals: their sum is Tcmd, and each lies within its channel's limits (R29, R30). -/
theorem references_spec (tcmd : Int) (share : Nat) (lim lneg : Pair Int) (ha : 0 ≤ lim.a) (hb : 0 ≤ lim.b) (na : 0 ≤ lneg.a)
    (nb : 0 ≤ lneg.b) (hlo : -(lneg.a + lneg.b) ≤ tcmd) (hhi : tcmd ≤ lim.a + lim.b) :
    let first := max (-lneg.a) (min lim.a ((tcmd * (share : Int) + 2048) / 4096))
    let second := max (-lneg.b) (min lim.b (tcmd - first))
    references tcmd share lim lneg = ⟨tcmd - second, second⟩ ∧ -lneg.a ≤ tcmd - second ∧ tcmd - second ≤ lim.a ∧
      -lneg.b ≤ second ∧ second ≤ lim.b := by
  intro first second
  have hA : ∀ p : Pair Int, limitA p lim.a lneg.a = ⟨max (-lneg.a) (min lim.a p.a), p.a + p.b - max (-lneg.a) (min lim.a p.a)⟩ := by
    intro p; unfold limitA
    by_cases h1 : lim.a < p.a
    · rw [if_pos h1, Pair.mk.injEq]; omega
    · rw [if_neg h1]
      by_cases h2 : p.a < -lneg.a
      · rw [if_pos h2, Pair.mk.injEq]; omega
      · rw [if_neg h2]; cases p; rw [Pair.mk.injEq]; simp only at *; omega
  have hB : ∀ p : Pair Int, limitB p lim.b lneg.b = ⟨p.a + p.b - max (-lneg.b) (min lim.b p.b), max (-lneg.b) (min lim.b p.b)⟩ := by
    intro p; unfold limitB
    by_cases h1 : lim.b < p.b
    · rw [if_pos h1, Pair.mk.injEq]; omega
    · rw [if_neg h1]
      by_cases h2 : p.b < -lneg.b
      · rw [if_pos h2, Pair.mk.injEq]; omega
      · rw [if_neg h2]; cases p; rw [Pair.mk.injEq]; simp only at *; omega
  have hR : references tcmd share lim lneg = ⟨tcmd - second, second⟩ := by
    unfold references
    rw [hB, hA]
    simp only [shareSplit, second, first]
    rw [Pair.mk.injEq]; constructor <;> congr 1 <;> omega
  refine ⟨hR, ?_, ?_, ?_, ?_⟩ <;> omega

end Sys2Proof.Machine
end

