-- ==== Sys2Proof/Laws/Blocks.lean ====
section
/-! SUPPORT. What the blocks' shared operations do, said once each: the words of a snapshot and of a report, the ring that takes a
snapshot, the work on a sample. -/

namespace Sys2Proof.Machine

/-! ### Snapshots and reports -/

/-- The words of a snapshot, one by one (R145, 11.5). -/
theorem Snapshot.words_getElem (x : Snapshot) {k : Nat} (hk : k < 16) : x.words[k]? = some (snapshotWord x k) := by
  have ht : ∀ l : Level, l.twoPlace = if l = .disabled then 0 else l.code := fun l => by cases l <;> rfl
  have hs : ∀ t : Tracking, 32768 * bit (t == .uncertain) = if t = .uncertain then 32768 else 0 := fun t => by cases t <;> rfl
  interval_cases k <;> simp only [Snapshot.words, snapshotWord, List.getElem?_cons_zero, List.getElem?_cons_succ,
    Option.some.injEq, sectorWord, hs]
  · congr 1; cases x.isolated.a <;> cases x.isolated.b <;> rfl
  · have h : ∀ i, (if x.levels.get i = .disabled then 0 else (x.levels.get i).code) = (x.levels.get i).twoPlace :=
      fun i => (ht _).symm
    simp only [h]
    simp only [Octet.toList, Octet.get, packLevels]
    congr 1; omega

/-- The causes of a report, bit by bit: bit c - 1 set while a cause of code c is latched (R177, 11.5). -/
theorem latchedWord_spec (l : List Cause) (i : Nat) (hi : i < 16) :
    (latchedWord l).getLsbD i = true ↔ i < 10 ∧ ∃ c ∈ l, c.code = i + 1 := by
  have h : ∀ (codes : List Nat) (w : Word), (∀ c ∈ codes, 1 ≤ c ∧ c ≤ 10) →
      ((codes.foldl (fun w c => if l.any (fun x => x.code == c) then w ||| (1#16 <<< (c - 1)) else w) w).getLsbD i = true ↔
        w.getLsbD i = true ∨ i + 1 ∈ codes ∧ ∃ c ∈ l, c.code = i + 1) := by
    intro codes
    induction codes with
    | nil => simp
    | cons c cs ih =>
      intro w hc
      have h1 := hc c (by simp)
      rw [List.foldl_cons, ih _ fun d hd => hc d (List.mem_cons_of_mem _ hd)]
      by_cases e : c = i + 1
      · subst e
        by_cases ha : ∃ x ∈ l, x.code = i + 1
        · have : l.any (fun x => x.code == i + 1) = true := by simpa using ha
          simp [this, ha, hi]
        · have : ¬l.any (fun x => x.code == i + 1) = true := by simpa using ha
          simp [this, ha]
      · have hne : (1#16 <<< (c - 1)).getLsbD i = false := by
          rw [BitVec.getLsbD_shiftLeft]
          by_cases hlt : i < c - 1
          · simp [hlt]
          · have : (1#16).getLsbD (i - (c - 1)) = false := by
              have h0 : i - (c - 1) ≠ 0 := by omega
              simp [BitVec.getLsbD_one, h0]
            simp [this]
        have hm : i + 1 ∈ c :: cs ↔ i + 1 ∈ cs := by simp [Ne.symm e]
        rw [hm]
        split <;> simp [hne]
  unfold latchedWord
  rw [h _ _ (by decide)]
  have : i + 1 ∈ [1, 2, 3, 4, 5, 6, 7, 8, 9, 10] ↔ i < 10 := by interval_cases i <;> decide
  simp [this]

/-- The values of a report (R177, 11.5). -/
theorem State.reportValues_spec (s : State) : ReportHolds s s.reportValues := by
  refine ⟨rfl, ?_, rfl, rfl, rfl, rfl, rfl, rfl, ⟨_, rfl, fun i hi => latchedWord_spec _ i hi⟩, ?_, ?_, ?_,
    rfl, rfl, rfl, rfl, rfl, rfl, rfl, rfl, rfl, rfl, ?_, rfl, ?_⟩
  · show some (wordN _) = _
    congr 2; cases s.rc.isolated.a <;> cases s.rc.isolated.b <;> simp [bit]
  · intro h
    constructor
    · show some (match s.tu.firstOut with | some c => wordN c.code | none => 0) = _; rw [h]
    · show some (match s.tu.firstOut with | some c => wordN c.detail | none => 0) = _; rw [h]
  · intro c h
    constructor
    · show some (match s.tu.firstOut with | some c => wordN c.code | none => 0) = _; rw [h]
    · show some (match s.tu.firstOut with | some c => wordN c.detail | none => 0) = _; rw [h]
  · show some (wordN _) = _; cases s.tu.extFiltered <;> rfl
  · show some (wordN _) = _; cases s.pt.tracking <;> rfl
  · intro i; fin_cases i <;> exact ⟨rfl, rfl, rfl⟩

/-- The saturated marks of a list of counters, bit by bit (11.5). -/
theorem satMarks_spec (l : List Counter) (i : Nat) (hl : l.length ≤ 16) :
    satMarks l < 2 ^ l.length ∧ ((wordN (satMarks l)).getLsbD i = (l.map (·.sat)).getD i false) := by
  have h : ∀ l : List Counter, satMarks l < 2 ^ l.length ∧ ∀ i, (satMarks l).testBit i = (l.map (·.sat)).getD i false := by
    intro l
    induction l with
    | nil => simp [satMarks]
    | cons c cs ih =>
      refine ⟨?_, fun i => ?_⟩
      · have := ih.1; simp only [satMarks, List.length_cons, pow_succ]; cases c.sat <;> simp [bit] <;> omega
      · cases i with
        | zero => simp only [satMarks]; cases h : c.sat <;> simp [bit, h]
        | succ i =>
          simp only [satMarks, List.map_cons, List.getD_cons_succ, ← ih.2 i, Nat.testBit_succ]
          congr 1; cases c.sat
          · simp [bit]
          · simp [bit]; omega
  refine ⟨(h l).1, ?_⟩
  rw [wordN, BitVec.getLsbD_ofNat, (h l).2]
  by_cases hi : i < 16
  · simp [hi]
  · have : (l.map (·.sat)).length ≤ i := by simp; omega
    simp [List.getD, List.getElem?_eq_none this]

/-- The beginning of a report's writing leaves what R176 says. -/
theorem ReportUnit.beginReport_spec (r : ReportUnit) (values : List Word) : ReportBegun values r (r.beginReport values) := by
  have hm := satMarks_spec r.transferred.toList 0 (by simp [Counts.toList])
  refine ⟨wordN (satMarks r.transferred.toList), fun i _ => ?_, ?_, ?_⟩
  · rw [(satMarks_spec r.transferred.toList i (by simp [Counts.toList])).2]
  · have : satMarks r.transferred.toList < 1024 := by
      have h10 : r.transferred.toList.length = 10 := rfl
      rw [h10] at hm; exact hm.1
    simp only [wordN, BitVec.toNat_ofNat]; omega
  · unfold ReportUnit.beginReport reportWords
    have hb : ∀ b : Bool, wordN (bit b) = if b then 1 else 0 := fun b => by cases b <;> rfl
    simp only [hb, zeroWords, List.append_assoc, List.cons_append, List.nil_append]

/-- A request leaves what R176 and R177 say. -/
theorem State.requestReport_spec (s : State) : RequestLeaves s s.requestReport := by
  unfold RequestLeaves State.requestReport
  cases h : s.rn.inFlight with
  | none => exact ⟨rfl, _, s.reportValues_spec, ReportUnit.beginReport_spec _ _⟩
  | some ws => exact ⟨rfl, _, s.reportValues_spec, rfl⟩

/-! ### The ring and the samples -/

/-- What the per-sample work of a channel leaves (R105 to R107, R115). -/
theorem SensorChannel.sample_spec (c : SensorChannel) (k : Nat) (x : Int) (bias : Bool) :
    let ac := max (-32768) (min 32767 (x - (c.off + 128) / 256))
    let stuck := if c.lastRaw = some x then min (c.stuck + 1) k else 0
    let bad := k ≤ stuck ∨ bias = true
    let enters := bad ∧ c.level ≠ .fault
    c.sample k x bias =
      { c with
        off := c.off + (256 * x - c.off) / 1024
        lastRaw := some x
        stuck := stuck
        level := if bad then .fault else c.level
        up := if enters then 0 else c.up
        dn := if enters then 0 else c.dn
        low := if enters then 0 else c.low
        below := if enters then 0 else c.below
        sumSq := c.sumSq + ac.natAbs * ac.natAbs
        peak := max c.peak (min ac.natAbs 32767)
        count := c.count + 1
        faultSeen := c.faultSeen || decide bad } := by
  intro ac stuck bad enters
  have hac : c.corrected x = ac := by
    simp only [SensorChannel.corrected, SensorChannel.offsetCount, ac]; exact clamp_eq (by decide)
  have hst : c.nextStuck k x = stuck := rfl
  unfold SensorChannel.sample
  simp only [hac, hst, magnitude]
  have hbad : (decide (k ≤ stuck) || bias) = decide bad := by simp [bad]
  rw [hbad]
  by_cases hb : bad <;> by_cases hl : c.level = .fault <;> simp [hb, hl, enters, SensorChannel.zeroCounters]

/-- A ring place after a snapshot has been placed. -/
theorem ringAt_cons_filter (ring : List (Nat × Snapshot)) (p q : Nat) (x : Snapshot) :
    ringAt ((p, x) :: ring.filter (fun e => e.1 != p)) q = if q = p then some x else ringAt ring q := by
  unfold ringAt
  by_cases h : q = p
  · subst h; simp
  · rw [if_neg h, List.find?_cons_of_neg (by simpa using fun e : p = q => h e.symm), List.find?_filter]
    congr 2; funext e
    by_cases he : e.1 = q
    · simp [he, h]
    · simp [he]

/-- A ring that takes a snapshot under the next number holds it with those before (R144). -/
theorem RingHolds.place {number fill : Nat} {ring : List (Nat × Snapshot)} (h : RingHolds number fill ring) (x : Snapshot)
    (hx : x.number = (number + 1) % 65536) :
    RingHolds x.number (min (fill + 1) 256)
      (((x.number + 65535) % 65536 % 256, x) :: ring.filter (fun e => e.1 != (x.number + 65535) % 65536 % 256)) := by
  obtain ⟨h1, h2, h3⟩ := h
  refine ⟨by omega, by omega, fun i hi => ?_⟩
  rw [ringAt_cons_filter]
  rcases i with _ | i
  · rw [if_pos (by omega), if_pos (by omega)]
    exact ⟨x, rfl, by omega⟩
  · have h := h3 i (by omega)
    rw [if_neg (by omega : ¬(x.number + 65535 - (i + 1)) % 256 = _),
      show (x.number + 65535 - (i + 1)) % 256 = (number + 65535 - i) % 256 by omega]
    by_cases hf : i < fill
    · rw [if_pos hf] at h
      rw [if_pos (by omega)]
      obtain ⟨y, hy, hn⟩ := h
      exact ⟨y, hy, by omega⟩
    · rw [if_neg hf] at h
      rw [if_neg (by omega)]
      exact h

end Sys2Proof.Machine
end

