-- ==== Sys2Proof/Laws/Memory.lean ====
section
/-! SUPPORT. The laws of exchange memory: a read after a write, and that every memory operation keeps the canonical form. -/

namespace Sys2Proof.Machine

/-- A word that no cell lists reads 0 (R161). -/
theorem Memory.read_of_not_mem {m : Memory} {a : Nat} (h : ∀ c ∈ m, c.1 ≠ a) : m.read a = 0 := by
  induction m with
  | nil => rfl
  | cons c m ih =>
    obtain ⟨k, v⟩ := c
    have hk : k ≠ a := h (k, v) (by simp)
    simp only [Memory.read, if_neg hk]
    exact ih fun c hc => h c (List.mem_cons_of_mem _ hc)

/-- Reading two runs of cells one after the other: the first that lists the word decides. -/
theorem Memory.read_append (m n : Memory) (a : Nat) :
    Memory.read (m ++ n) a = if ∃ c ∈ m, c.1 = a then m.read a else n.read a := by
  induction m with
  | nil => simp
  | cons c m ih =>
    obtain ⟨k, v⟩ := c
    by_cases hk : k = a
    · simp [Memory.read, hk]
    · simp [Memory.read, hk, ih]

/-- A filter on offsets that keeps a keeps what is read there. -/
theorem Memory.read_filter_pos (m : Memory) (p : Nat → Bool) (a : Nat) (h : p a = true) :
    Memory.read (m.filter fun c => p c.1) a = m.read a := by
  induction m with
  | nil => rfl
  | cons c m ih =>
    obtain ⟨k, v⟩ := c
    by_cases hk : k = a
    · subst hk; simp [h, Memory.read]
    · by_cases hp : p k = true
      · simp [hp, Memory.read, hk, ih]
      · simp [hp, Memory.read, hk, ih]

/-- The cells of a run lie at its offsets, inside exchange memory, and hold no zero word. -/
theorem cellsFrom_mem {a : Nat} {ws : List Word} {c : Nat × Word} (h : c ∈ cellsFrom a ws) :
    a ≤ c.1 ∧ c.1 < a + ws.length ∧ c.1 < Config.xmWords ∧ c.2 ≠ 0 := by
  induction ws generalizing a with
  | nil => simp [cellsFrom] at h
  | cons w ws ih =>
    simp only [cellsFrom] at h
    split at h
    · obtain ⟨h1, h2, h3, h4⟩ := ih h
      simp only [List.length_cons]; exact ⟨by omega, by omega, h3, h4⟩
    · rename_i hw
      rcases List.mem_cons.1 h with rfl | h
      · simp only [not_or, not_le] at hw; exact ⟨le_refl _, by simp, hw.2, hw.1⟩
      · obtain ⟨h1, h2, h3, h4⟩ := ih h
        simp only [List.length_cons]; exact ⟨by omega, by omega, h3, h4⟩

/-- The cells of a run stand in rising order. -/
theorem cellsFrom_pairwise (a : Nat) (ws : List Word) : (cellsFrom a ws).Pairwise fun x y => x.1 < y.1 := by
  induction ws generalizing a with
  | nil => simp [cellsFrom]
  | cons w ws ih =>
    simp only [cellsFrom]
    split
    · exact ih _
    · refine List.pairwise_cons.2 ⟨fun c hc => ?_, ih _⟩
      have := (cellsFrom_mem hc).1
      simp only; omega

/-- Reading a word of a run that lies inside exchange memory. -/
theorem read_cellsFrom (a : Nat) (ws : List Word) (i : Nat) (hi : i < ws.length) (hx : a + i < Config.xmWords) :
    Memory.read (cellsFrom a ws) (a + i) = ws[i] := by
  induction ws generalizing a i with
  | nil => simp at hi
  | cons w ws ih =>
    simp only [cellsFrom]
    cases i with
    | zero =>
      split
      · rename_i h
        rcases h with rfl | h
        · refine Memory.read_of_not_mem fun c hc => ?_
          have := (cellsFrom_mem hc).1; omega
        · omega
      · simp [Memory.read]
    | succ i =>
      have hlt : i < ws.length := by simpa using hi
      have key := ih (a + 1) i hlt (by omega)
      have hadd : a + (i + 1) = a + 1 + i := by omega
      split
      · rw [hadd, key]; simp
      · rw [hadd]
        have hne : a ≠ a + 1 + i := by omega
        simp only [Memory.read, if_neg hne, key, List.getElem_cons_succ]

/-- A read after a write of a run: the run's word inside it, the old word outside. -/
theorem Memory.read_writeBlock (m : Memory) (a : Nat) (ws : List Word) (b : Nat) (hb : b < Config.xmWords) :
    (m.writeBlock a ws).read b = if h : a ≤ b ∧ b < a + ws.length then ws[b - a]'(by omega) else m.read b := by
  unfold Memory.writeBlock
  by_cases h1 : b < a
  · have hn : ¬(a ≤ b ∧ b < a + ws.length) := by omega
    rw [dif_neg hn, List.append_assoc, Memory.read_append]
    have hf := Memory.read_filter_pos m (fun k => decide (k < a)) b (by simpa using h1)
    by_cases he : ∃ c ∈ m.filter (fun c => decide (c.1 < a)), c.1 = b
    · rw [if_pos he]; exact hf
    · rw [if_neg he]
      have hz : Memory.read (m.filter fun c => decide (c.1 < a)) b = 0 :=
        Memory.read_of_not_mem fun c hc hcb => he ⟨c, hc, hcb⟩
      have hm : m.read b = 0 := by rw [← hf]; exact hz
      rw [hm]
      refine Memory.read_of_not_mem fun c hc => ?_
      rcases List.mem_append.1 hc with hc | hc
      · have := (cellsFrom_mem hc).1; omega
      · have := (List.mem_filter.1 hc).2
        simp only [decide_eq_true_eq] at this; omega
  · have hlow : ¬∃ c ∈ m.filter (fun c => decide (c.1 < a)), c.1 = b := by
      rintro ⟨c, hc, rfl⟩
      have := (List.mem_filter.1 hc).2
      simp only [decide_eq_true_eq] at this; exact h1 this
    rw [List.append_assoc, Memory.read_append, if_neg hlow, Memory.read_append]
    by_cases h2 : b < a + ws.length
    · rw [dif_pos ⟨by omega, h2⟩]
      have key := read_cellsFrom a ws (b - a) (by omega) (by omega)
      have hab : a + (b - a) = b := by omega
      rw [hab] at key
      by_cases he : ∃ c ∈ cellsFrom a ws, c.1 = b
      · rw [if_pos he]; exact key
      · rw [if_neg he]
        have hz : Memory.read (cellsFrom a ws) b = 0 := Memory.read_of_not_mem fun c hc hcb => he ⟨c, hc, hcb⟩
        rw [← key, hz]
        refine Memory.read_of_not_mem fun c hc => ?_
        have := (List.mem_filter.1 hc).2
        simp only [decide_eq_true_eq] at this; omega
    · rw [dif_neg (by omega)]
      have hmid : ¬∃ c ∈ cellsFrom a ws, c.1 = b := by
        rintro ⟨c, hc, rfl⟩; have := (cellsFrom_mem hc).2.1; omega
      rw [if_neg hmid]
      exact Memory.read_filter_pos m (fun k => decide (a + ws.length ≤ k)) b (by simp; omega)

/-- A read after a write of one word. -/
theorem Memory.read_write (m : Memory) (a : Nat) (w : Word) (b : Nat) (hb : b < Config.xmWords) :
    (m.write a w).read b = if b = a then w else m.read b := by
  unfold Memory.write
  rw [Memory.read_writeBlock m a [w] b hb]
  by_cases h : b = a
  · subst h; simp
  · rw [if_neg h, dif_neg]; simp only [List.length_cons, List.length_nil]; omega

/-- A read after a list of writes: the old word, or a word that the list holds for that offset. -/
theorem Memory.read_writeAll (m : Memory) (cells : List (Nat × Word)) (b : Nat) (hb : b < Config.xmWords) :
    (m.writeAll cells).read b = m.read b ∨ (b, (m.writeAll cells).read b) ∈ cells := by
  unfold Memory.writeAll
  induction cells generalizing m with
  | nil => exact .inl rfl
  | cons c cells ih =>
    simp only [List.foldl_cons]
    rcases ih (m.write c.1 c.2) with h | h
    · rw [h, Memory.read_write _ _ _ _ hb]
      by_cases hc : b = c.1
      · subst hc; exact .inr (by simp)
      · exact .inl (if_neg hc)
    · exact .inr (List.mem_cons_of_mem _ h)

/-- A list of writes leaves a word that none of them names. -/
theorem Memory.read_writeAll_of_not_mem (m : Memory) (cells : List (Nat × Word)) (b : Nat) (hb : b < Config.xmWords)
    (h : ∀ c ∈ cells, c.1 ≠ b) : (m.writeAll cells).read b = m.read b := by
  rcases Memory.read_writeAll m cells b hb with h1 | h1
  · exact h1
  · exact absurd rfl (h _ h1)

/-- A run of words written cell by cell is the run written as a whole. -/
theorem Memory.read_writeAll_cellRun (m : Memory) (a : Nat) (ws : List Word) (b : Nat) (hb : b < Config.xmWords) :
    (m.writeAll (cellRun a ws)).read b = if h : a ≤ b ∧ b < a + ws.length then ws[b - a]'(by omega) else m.read b := by
  induction ws generalizing a m with
  | nil => rw [dif_neg (by simp)]; rfl
  | cons w ws ih =>
    show ((m.write a w).writeAll (cellRun (a + 1) ws)).read b = _
    rw [ih]
    by_cases h1 : a + 1 ≤ b ∧ b < a + 1 + ws.length
    · rw [dif_pos h1, dif_pos (by simp only [List.length_cons]; omega)]
      obtain ⟨k, rfl⟩ : ∃ k, b = a + 1 + k := ⟨b - (a + 1), by omega⟩
      have e1 : a + 1 + k - (a + 1) = k := by omega
      have e2 : a + 1 + k - a = k + 1 := by omega
      simp only [e1, e2, List.getElem_cons_succ]
    · rw [dif_neg h1, Memory.read_write _ _ _ _ hb]
      by_cases h2 : b = a
      · subst h2; simp
      · rw [if_neg h2, dif_neg]; simp only [List.length_cons]; omega

/-- The cells of a run lie at its offsets. -/
theorem mem_cellRun {a : Nat} {ws : List Word} {c : Nat × Word} (h : c ∈ cellRun a ws) : a ≤ c.1 ∧ c.1 < a + ws.length := by
  induction ws generalizing a with
  | nil => simp [cellRun] at h
  | cons w ws ih =>
    simp only [cellRun, List.mem_cons] at h
    rcases h with rfl | h
    · simp
    · have := ih h; simp only [List.length_cons]; omega

/-- A list of writes after another. -/
theorem Memory.writeAll_append (m : Memory) (c d : List (Nat × Word)) : m.writeAll (c ++ d) = (m.writeAll c).writeAll d :=
  List.foldl_append

/-- A word outside exchange memory is never written. -/
theorem Memory.read_outside {m : Memory} (h : m.wf) {b : Nat} (hb : Config.xmWords ≤ b) : m.read b = 0 :=
  Memory.read_of_not_mem fun c hc hcb => by have := (h.2 c hc).1; omega

/-- The write of a run keeps the canonical form. -/
theorem Memory.wf_writeBlock {m : Memory} (h : m.wf) (a : Nat) (ws : List Word) : (m.writeBlock a ws).wf := by
  unfold Memory.writeBlock
  refine ⟨?_, ?_⟩
  · rw [List.append_assoc]
    refine List.pairwise_append.2 ⟨h.1.filter _, List.pairwise_append.2 ⟨cellsFrom_pairwise a ws, h.1.filter _, ?_⟩, ?_⟩
    · intro x hx y hy
      have h1 := (cellsFrom_mem hx).2.1
      have h2 := (List.mem_filter.1 hy).2
      simp only [decide_eq_true_eq] at h2; omega
    · intro x hx y hy
      have h1 := (List.mem_filter.1 hx).2
      simp only [decide_eq_true_eq] at h1
      rcases List.mem_append.1 hy with hy | hy
      · have := (cellsFrom_mem hy).1; omega
      · have h2 := (List.mem_filter.1 hy).2
        simp only [decide_eq_true_eq] at h2; omega
  · intro c hc
    rcases List.mem_append.1 hc with hc | hc
    · rcases List.mem_append.1 hc with hc | hc
      · exact h.2 c (List.mem_filter.1 hc).1
      · exact (cellsFrom_mem hc).2.2
    · exact h.2 c (List.mem_filter.1 hc).1

/-- The write of one word keeps the canonical form. -/
theorem Memory.wf_write {m : Memory} (h : m.wf) (a : Nat) (w : Word) : (m.write a w).wf :=
  Memory.wf_writeBlock h a [w]

/-- A list of writes keeps the canonical form. -/
theorem Memory.wf_writeAll {m : Memory} (h : m.wf) (cells : List (Nat × Word)) : (m.writeAll cells).wf := by
  unfold Memory.writeAll
  induction cells generalizing m with
  | nil => exact h
  | cons c cells ih => exact ih (Memory.wf_write h c.1 c.2)

/-- Exchange memory at reset has the canonical form. -/
theorem Memory.wf_nil : Memory.wf [] := ⟨List.Pairwise.nil, by simp⟩

end Sys2Proof.Machine
end

