-- ==== Sys2Proof/Laws/Operations.lean ====
section
/-! SUPPORT. What exchange memory can hold while operations are in flight: the stages in their order, each word old or new. -/

namespace Sys2Proof.Machine

/-- What an operation has written belongs to it, in a stage no later than the one it has come to. -/
theorem mem_writtenStages {words : Nat → Bool} {stages : List (List (Nat × Word))} {k : Nat} {c : Nat × Word}
    (h : c ∈ writtenStages words stages k) : ∃ i g, i ≤ k ∧ stages[i]? = some g ∧ c ∈ g := by
  induction stages generalizing k with
  | nil => simp [writtenStages] at h
  | cons g rest ih =>
    cases k with
    | zero => exact ⟨0, g, le_rfl, rfl, (List.mem_filter.1 h).1⟩
    | succ k =>
      rcases List.mem_append.1 h with h | h
      · exact ⟨0, g, by omega, rfl, h⟩
      · obtain ⟨i, g', hi, e, hc⟩ := ih h
        exact ⟨i + 1, g', by omega, e, hc⟩

/-- The stages before the one that an operation has come to are written whole. -/
theorem writtenStages_of_lt {words : Nat → Bool} {stages : List (List (Nat × Word))} {k i : Nat} {g : List (Nat × Word)}
    (hi : i < k) (hg : stages[i]? = some g) {c : Nat × Word} (hc : c ∈ g) : c ∈ writtenStages words stages k := by
  induction stages generalizing k i with
  | nil => simp at hg
  | cons g' rest ih =>
    obtain ⟨k, rfl⟩ : ∃ j, k = j + 1 := ⟨k - 1, by omega⟩
    cases i with
    | zero => cases Option.some.inj hg; exact List.mem_append_left _ hc
    | succ i => exact List.mem_append_right _ (ih (by omega) hg)

/-- An operation that is not in flight has written nothing. -/
@[simp] theorem Progress.written_nil (p : Progress) (o : Operation) : p.written o [] = [] := rfl

/-- A cell that an operation has written is one of the operations in flight. -/
theorem State.mem_cellsInFlight {s : State} {p : Progress} {o : Operation} {c : Nat × Word}
    (h : c ∈ p.written o (s.stages o)) : c ∈ s.cellsInFlight := by
  obtain ⟨i, g, -, hg, hc⟩ := mem_writtenStages h
  have hm := List.mem_of_getElem? hg
  unfold State.cellsInFlight
  refine List.mem_flatten.2 ⟨g, ?_, hc⟩
  cases o <;> simp [hm]

/-- Each word is the old one or one of an operation in flight, whatever the progress (R93, R159, R176). -/
theorem State.read_memoryAt (s : State) (p : Progress) (a : Nat) (ha : a < Config.xmWords) :
    (s.memoryAt p).read a = s.xm.read a ∨ (a, (s.memoryAt p).read a) ∈ s.cellsInFlight := by
  unfold State.memoryAt
  rcases Memory.read_writeAll _ (p.written .copy (s.stages .copy)) a ha with h | h
  · rw [h]
    rcases Memory.read_writeAll _ (p.written .report (s.stages .report)) a ha with h | h
    · rw [h]
      rcases Memory.read_writeAll s.xm (p.written .publication (s.stages .publication)) a ha with h | h
      · exact .inl h
      · exact .inr (State.mem_cellsInFlight h)
    · exact .inr (State.mem_cellsInFlight h)
  · exact .inr (State.mem_cellsInFlight h)

/-- Exchange memory keeps its canonical form at every progress. -/
theorem State.wf_memoryAt {s : State} (h : s.xm.wf) (p : Progress) : (s.memoryAt p).wf :=
  Memory.wf_writeAll (Memory.wf_writeAll (Memory.wf_writeAll h _) _) _

/-- The stages of a report are its 240 words, in order. -/
theorem flatten_reportStages (ws : List Word) : (reportStages ws).flatten = cellRun 0x0010 ws := by
  simp only [reportStages, List.flatten_cons, List.flatten_nil, List.append_nil]
  rw [show (cellRun 0x0010 ws).drop 239 = ((cellRun 0x0010 ws).drop 1).drop 238 by rw [List.drop_drop], List.take_append_drop,
    List.take_append_drop]

/-- A snapshot has sixteen words (R145). -/
@[simp] theorem Snapshot.words_length (x : Snapshot) : x.words.length = 16 := rfl

/-- One run of words after the other. -/
theorem cellRun_append (a : Nat) (v w : List Word) : cellRun a (v ++ w) = cellRun a v ++ cellRun (a + v.length) w := by
  induction v generalizing a with
  | nil => rfl
  | cons x v ih =>
    simp only [List.cons_append, cellRun, List.length_cons, ih]
    rw [show a + (v.length + 1) = a + 1 + v.length by omega]

/-- The stages of the places of a slot are the words of the snapshots, one place after the other. -/
theorem flatten_placeStages (n : Fin 4) (p : Nat) (xs : List Snapshot) :
    (placeStages n p xs).flatten = cellRun (placeOffset n p) (xs.flatMap Snapshot.words) := by
  induction xs generalizing p with
  | nil => rfl
  | cons x xs ih =>
    simp only [placeStages, List.flatten_cons, List.flatMap_cons, cellRun_append, ih, Snapshot.words_length]
    rw [show placeOffset n (p + 1) = placeOffset n p + 16 by unfold placeOffset; omega]

/-- The cells of a copy are the header and then the words of the snapshots (R149, R150). -/
theorem CopyJob.cells_eq (j : CopyJob) (n : Fin 4) :
    j.cells n = cellRun (slotStateOffset n + 1) j.header ++ cellRun (placeOffset n 0) (j.pre.flatMap Snapshot.words) := by
  simp [CopyJob.cells, CopyJob.stages, flatten_placeStages]

/-- The cells of a publication: 0x0300, the entries, the summary, 0x030F (R93). -/
theorem Publication.cells_eq (p : Publication) :
    p.cells = (0x0300, wordN p.number) :: (cellRun 0x0200 (tableWords p.rev.valid 0 p.rev.table) ++
      cellRun 0x0301 p.rev.summaryWords ++ [(0x030F, wordN p.number)]) := by
  simp [Publication.cells, Publication.stages]

/-- The first n cells of a run. -/
theorem take_cellRun (a n : Nat) (ws : List Word) : (cellRun a ws).take n = cellRun a (ws.take n) := by
  induction ws generalizing a n with
  | nil => simp [cellRun]
  | cons w ws ih => cases n <;> simp [cellRun, ih]

/-- The entries of a table are eight words each (R91). -/
theorem tableWords_length (valid : Bool) (i : Nat) (es : List WorkEntry) : (tableWords valid i es).length = 8 * es.length := by
  induction es generalizing i with
  | nil => rfl
  | cons e es ih => simp only [tableWords, List.length_append, ih, List.length_cons, sectorEntryWords, List.length_nil]; omega

/-- The cells of a copy lie behind the state word of its slot (08, 8.1). -/
theorem CopyJob.mem_cells {j : CopyJob} {n : Fin 4} {c : Nat × Word} (h : c ∈ j.cells n) : slotStateOffset n < c.1 := by
  rw [CopyJob.cells_eq] at h
  rcases List.mem_append.1 h with h | h
  · have := mem_cellRun h; omega
  · have := mem_cellRun h; unfold placeOffset at this; omega

/-- A word that a list of cells writes once holds what they write there. -/
theorem Memory.read_writeAll_of_mem {cells : List (Nat × Word)} (m : Memory) (hn : (cells.map (·.1)).Nodup) {c : Nat × Word}
    (hc : c ∈ cells) (hb : c.1 < Config.xmWords) : (m.writeAll cells).read c.1 = c.2 := by
  induction cells generalizing m with
  | nil => simp at hc
  | cons d cells ih =>
    rw [List.map_cons, List.nodup_cons] at hn
    rw [show m.writeAll (d :: cells) = (m.write d.1 d.2).writeAll cells from rfl]
    rcases List.mem_cons.1 hc with rfl | hc
    · rw [Memory.read_writeAll_of_not_mem _ _ _ hb fun e he h => hn.1 (List.mem_map.2 ⟨e, he, h⟩), Memory.read_write _ _ _ _ hb,
        if_pos rfl]
    · exact ih _ hn.2 hc

/-- What has been written of an operation is a part of it, in its order. -/
theorem writtenStages_sublist (words : Nat → Bool) (stages : List (List (Nat × Word))) (k : Nat) :
    (writtenStages words stages k).Sublist stages.flatten := by
  induction stages generalizing k with
  | nil => exact .slnil
  | cons g rest ih =>
    cases k with
    | zero => exact List.filter_sublist.trans (List.sublist_append_left g rest.flatten)
    | succ k => exact List.Sublist.append (List.Sublist.refl g) (ih k)

/-- While an operation that writes each word once is in flight, a word of its stage i reads as before or as after, and once it no
longer reads as before, every word of an earlier stage reads as after (R93, R149, R150, R176). -/
theorem written_inOrder {words : Nat → Bool} {stages : List (List (Nat × Word))} (m : Memory) (k : Nat)
    (hn : (stages.flatten.map (·.1)).Nodup) (hx : ∀ c ∈ stages.flatten, c.1 < Config.xmWords) {i : Nat} {g : List (Nat × Word)}
    (hi : stages[i]? = some g) {c : Nat × Word} (hc : c ∈ g) :
    ((m.writeAll (writtenStages words stages k)).read c.1 = m.read c.1 ∨
      (m.writeAll (writtenStages words stages k)).read c.1 = c.2) ∧
    ((m.writeAll (writtenStages words stages k)).read c.1 ≠ m.read c.1 →
      ∀ j < i, ∀ f, stages[j]? = some f → ∀ d ∈ f, (m.writeAll (writtenStages words stages k)).read d.1 = d.2) := by
  have hs := writtenStages_sublist words stages k
  have hw : ((writtenStages words stages k).map (·.1)).Nodup := (hs.map _).nodup hn
  have hin : ∀ {j : Nat} {f : List (Nat × Word)} {d : Nat × Word}, stages[j]? = some f → d ∈ f → d ∈ stages.flatten :=
    fun hj hd => List.mem_flatten.2 ⟨_, List.mem_of_getElem? hj, hd⟩
  have hcx := hx c (hin hi hc)
  by_cases hm : ∃ d ∈ writtenStages words stages k, d.1 = c.1
  · obtain ⟨d, hd, e⟩ := hm
    have hdc : d = c := List.inj_on_of_nodup_map hn (hs.subset hd) (hin hi hc) e
    subst hdc
    refine ⟨.inr (Memory.read_writeAll_of_mem m hw hd hcx), fun _ j hj f hf b hb => ?_⟩
    obtain ⟨i', g', hik, hg', hd'⟩ := mem_writtenStages hd
    have hii : i ≤ i' := by
      by_contra hlt
      have hp : (stages.flatten).Nodup := List.Nodup.of_map _ hn
      have hdis := (List.nodup_flatten.1 hp).2
      rw [List.pairwise_iff_getElem] at hdis
      obtain ⟨h1, e1⟩ := List.getElem?_eq_some_iff.1 hi
      obtain ⟨h2, e2⟩ := List.getElem?_eq_some_iff.1 hg'
      exact hdis i' i h2 h1 (by omega) (e2 ▸ hd') (e1 ▸ hc)
    exact Memory.read_writeAll_of_mem m hw (writtenStages_of_lt (by omega) hf hb) (hx b (hin hf hb))
  · have hr : (m.writeAll (writtenStages words stages k)).read c.1 = m.read c.1 :=
      Memory.read_writeAll_of_not_mem _ _ _ hcx fun d hd e => hm ⟨d, hd, e⟩
    exact ⟨.inl hr, fun h => absurd hr h⟩

end Sys2Proof.Machine
end

