-- ==== Sys2Proof/Laws/State.lean ====
section
/-! SUPPORT. The fields of a state after each elementary named update, all true by rfl: what the update writes, and that every other
field is kept. -/

namespace Sys2Proof.Machine

/-! ### notify -/

@[simp] theorem State.notify_pending (s : State) (n : Notice) : (s.notify n).pending = s.pending := rfl
@[simp] theorem State.notify_now (s : State) (n : Notice) : (s.notify n).now = s.now := rfl
@[simp] theorem State.notify_startUp (s : State) (n : Notice) : (s.notify n).startUp = s.startUp := rfl
@[simp] theorem State.notify_initEnd (s : State) (n : Notice) : (s.notify n).initEnd = s.initEnd := rfl
@[simp] theorem State.notify_resetLow (s : State) (n : Notice) : (s.notify n).resetLow = s.resetLow := rfl
@[simp] theorem State.notify_freeIndex (s : State) (n : Notice) : (s.notify n).freeIndex = s.freeIndex := rfl
@[simp] theorem State.notify_xm (s : State) (n : Notice) : (s.notify n).xm = s.xm := rfl
@[simp] theorem State.notify_rc (s : State) (n : Notice) : (s.notify n).rc = s.rc := rfl
@[simp] theorem State.notify_tru (s : State) (n : Notice) : (s.notify n).tru = s.tru := rfl
@[simp] theorem State.notify_reg (s : State) (n : Notice) : (s.notify n).reg = s.reg := rfl
@[simp] theorem State.notify_link (s : State) (n : Notice) : (s.notify n).link = s.link := rfl
@[simp] theorem State.notify_tloss (s : State) (n : Notice) : (s.notify n).tloss = s.tloss := rfl
@[simp] theorem State.notify_pt (s : State) (n : Notice) : (s.notify n).pt = s.pt := rfl
@[simp] theorem State.notify_vw (s : State) (n : Notice) : (s.notify n).vw = s.vw := rfl
@[simp] theorem State.notify_tu (s : State) (n : Notice) : (s.notify n).tu = s.tu := rfl
@[simp] theorem State.notify_rcu (s : State) (n : Notice) : (s.notify n).rcu = s.rcu := rfl
@[simp] theorem State.notify_rn (s : State) (n : Notice) : (s.notify n).rn = { s.rn with notice := s.rn.notice ||| n.mark } := rfl
@[simp] theorem State.notify_cw (s : State) (n : Notice) : (s.notify n).cw = s.cw := rfl

/-! ### reach -/

@[simp] theorem State.reach_pending (s : State) (d : Nat) : (s.reach d).pending = s.pending := rfl
@[simp] theorem State.reach_now (s : State) (d : Nat) : (s.reach d).now = max s.now d := rfl
@[simp] theorem State.reach_startUp (s : State) (d : Nat) : (s.reach d).startUp = s.startUp := rfl
@[simp] theorem State.reach_initEnd (s : State) (d : Nat) : (s.reach d).initEnd = s.initEnd := rfl
@[simp] theorem State.reach_resetLow (s : State) (d : Nat) : (s.reach d).resetLow = s.resetLow := rfl
@[simp] theorem State.reach_freeIndex (s : State) (d : Nat) : (s.reach d).freeIndex = s.freeIndex := rfl
@[simp] theorem State.reach_xm (s : State) (d : Nat) : (s.reach d).xm = s.xm := rfl
@[simp] theorem State.reach_rc (s : State) (d : Nat) : (s.reach d).rc = s.rc := rfl
@[simp] theorem State.reach_tru (s : State) (d : Nat) : (s.reach d).tru = s.tru := rfl
@[simp] theorem State.reach_reg (s : State) (d : Nat) : (s.reach d).reg = s.reg := rfl
@[simp] theorem State.reach_link (s : State) (d : Nat) : (s.reach d).link = s.link := rfl
@[simp] theorem State.reach_tloss (s : State) (d : Nat) : (s.reach d).tloss = s.tloss := rfl
@[simp] theorem State.reach_pt (s : State) (d : Nat) : (s.reach d).pt = s.pt := rfl
@[simp] theorem State.reach_vw (s : State) (d : Nat) : (s.reach d).vw = s.vw := rfl
@[simp] theorem State.reach_tu (s : State) (d : Nat) : (s.reach d).tu = s.tu := rfl
@[simp] theorem State.reach_rcu (s : State) (d : Nat) : (s.reach d).rcu = s.rcu := rfl
@[simp] theorem State.reach_rn (s : State) (d : Nat) : (s.reach d).rn = s.rn := rfl
@[simp] theorem State.reach_cw (s : State) (d : Nat) : (s.reach d).cw = s.cw := rfl

/-! ### modLink -/

@[simp] theorem State.modLink_pending (s : State) (ch : Chan) (f : Link → Link) : (s.modLink ch f).pending = s.pending := rfl
@[simp] theorem State.modLink_now (s : State) (ch : Chan) (f : Link → Link) : (s.modLink ch f).now = s.now := rfl
@[simp] theorem State.modLink_startUp (s : State) (ch : Chan) (f : Link → Link) : (s.modLink ch f).startUp = s.startUp := rfl
@[simp] theorem State.modLink_initEnd (s : State) (ch : Chan) (f : Link → Link) : (s.modLink ch f).initEnd = s.initEnd := rfl
@[simp] theorem State.modLink_resetLow (s : State) (ch : Chan) (f : Link → Link) : (s.modLink ch f).resetLow = s.resetLow := rfl
@[simp] theorem State.modLink_freeIndex (s : State) (ch : Chan) (f : Link → Link) : (s.modLink ch f).freeIndex = s.freeIndex := rfl
@[simp] theorem State.modLink_xm (s : State) (ch : Chan) (f : Link → Link) : (s.modLink ch f).xm = s.xm := rfl
@[simp] theorem State.modLink_rc (s : State) (ch : Chan) (f : Link → Link) : (s.modLink ch f).rc = s.rc := rfl
@[simp] theorem State.modLink_tru (s : State) (ch : Chan) (f : Link → Link) : (s.modLink ch f).tru = s.tru := rfl
@[simp] theorem State.modLink_reg (s : State) (ch : Chan) (f : Link → Link) : (s.modLink ch f).reg = s.reg := rfl
@[simp] theorem State.modLink_link (s : State) (ch : Chan) (f : Link → Link) : (s.modLink ch f).link = s.link.modify ch f := rfl
@[simp] theorem State.modLink_tloss (s : State) (ch : Chan) (f : Link → Link) : (s.modLink ch f).tloss = s.tloss := rfl
@[simp] theorem State.modLink_pt (s : State) (ch : Chan) (f : Link → Link) : (s.modLink ch f).pt = s.pt := rfl
@[simp] theorem State.modLink_vw (s : State) (ch : Chan) (f : Link → Link) : (s.modLink ch f).vw = s.vw := rfl
@[simp] theorem State.modLink_tu (s : State) (ch : Chan) (f : Link → Link) : (s.modLink ch f).tu = s.tu := rfl
@[simp] theorem State.modLink_rcu (s : State) (ch : Chan) (f : Link → Link) : (s.modLink ch f).rcu = s.rcu := rfl
@[simp] theorem State.modLink_rn (s : State) (ch : Chan) (f : Link → Link) : (s.modLink ch f).rn = s.rn := rfl
@[simp] theorem State.modLink_cw (s : State) (ch : Chan) (f : Link → Link) : (s.modLink ch f).cw = s.cw := rfl

/-! ### modReg -/

@[simp] theorem State.modReg_pending (s : State) (ch : Chan) (f : Regulator → Regulator) : (s.modReg ch f).pending = s.pending := rfl
@[simp] theorem State.modReg_now (s : State) (ch : Chan) (f : Regulator → Regulator) : (s.modReg ch f).now = s.now := rfl
@[simp] theorem State.modReg_startUp (s : State) (ch : Chan) (f : Regulator → Regulator) : (s.modReg ch f).startUp = s.startUp := rfl
@[simp] theorem State.modReg_initEnd (s : State) (ch : Chan) (f : Regulator → Regulator) : (s.modReg ch f).initEnd = s.initEnd := rfl
@[simp] theorem State.modReg_resetLow (s : State) (ch : Chan) (f : Regulator → Regulator) : (s.modReg ch f).resetLow = s.resetLow := rfl
@[simp] theorem State.modReg_freeIndex (s : State) (ch : Chan) (f : Regulator → Regulator) : (s.modReg ch f).freeIndex = s.freeIndex := rfl
@[simp] theorem State.modReg_xm (s : State) (ch : Chan) (f : Regulator → Regulator) : (s.modReg ch f).xm = s.xm := rfl
@[simp] theorem State.modReg_rc (s : State) (ch : Chan) (f : Regulator → Regulator) : (s.modReg ch f).rc = s.rc := rfl
@[simp] theorem State.modReg_tru (s : State) (ch : Chan) (f : Regulator → Regulator) : (s.modReg ch f).tru = s.tru := rfl
@[simp] theorem State.modReg_reg (s : State) (ch : Chan) (f : Regulator → Regulator) : (s.modReg ch f).reg = s.reg.modify ch f := rfl
@[simp] theorem State.modReg_link (s : State) (ch : Chan) (f : Regulator → Regulator) : (s.modReg ch f).link = s.link := rfl
@[simp] theorem State.modReg_tloss (s : State) (ch : Chan) (f : Regulator → Regulator) : (s.modReg ch f).tloss = s.tloss := rfl
@[simp] theorem State.modReg_pt (s : State) (ch : Chan) (f : Regulator → Regulator) : (s.modReg ch f).pt = s.pt := rfl
@[simp] theorem State.modReg_vw (s : State) (ch : Chan) (f : Regulator → Regulator) : (s.modReg ch f).vw = s.vw := rfl
@[simp] theorem State.modReg_tu (s : State) (ch : Chan) (f : Regulator → Regulator) : (s.modReg ch f).tu = s.tu := rfl
@[simp] theorem State.modReg_rcu (s : State) (ch : Chan) (f : Regulator → Regulator) : (s.modReg ch f).rcu = s.rcu := rfl
@[simp] theorem State.modReg_rn (s : State) (ch : Chan) (f : Regulator → Regulator) : (s.modReg ch f).rn = s.rn := rfl
@[simp] theorem State.modReg_cw (s : State) (ch : Chan) (f : Regulator → Regulator) : (s.modReg ch f).cw = s.cw := rfl

/-! ### modFlags -/

@[simp] theorem State.modFlags_pending (s : State) (f : ConfigFlags → ConfigFlags) : (s.modFlags f).pending = s.pending := rfl
@[simp] theorem State.modFlags_now (s : State) (f : ConfigFlags → ConfigFlags) : (s.modFlags f).now = s.now := rfl
@[simp] theorem State.modFlags_startUp (s : State) (f : ConfigFlags → ConfigFlags) : (s.modFlags f).startUp = s.startUp := rfl
@[simp] theorem State.modFlags_initEnd (s : State) (f : ConfigFlags → ConfigFlags) : (s.modFlags f).initEnd = s.initEnd := rfl
@[simp] theorem State.modFlags_resetLow (s : State) (f : ConfigFlags → ConfigFlags) : (s.modFlags f).resetLow = s.resetLow := rfl
@[simp] theorem State.modFlags_freeIndex (s : State) (f : ConfigFlags → ConfigFlags) : (s.modFlags f).freeIndex = s.freeIndex := rfl
@[simp] theorem State.modFlags_xm (s : State) (f : ConfigFlags → ConfigFlags) : (s.modFlags f).xm = s.xm := rfl
@[simp] theorem State.modFlags_rc (s : State) (f : ConfigFlags → ConfigFlags) : (s.modFlags f).rc = { s.rc with flags := f s.rc.flags } := rfl
@[simp] theorem State.modFlags_tru (s : State) (f : ConfigFlags → ConfigFlags) : (s.modFlags f).tru = s.tru := rfl
@[simp] theorem State.modFlags_reg (s : State) (f : ConfigFlags → ConfigFlags) : (s.modFlags f).reg = s.reg := rfl
@[simp] theorem State.modFlags_link (s : State) (f : ConfigFlags → ConfigFlags) : (s.modFlags f).link = s.link := rfl
@[simp] theorem State.modFlags_tloss (s : State) (f : ConfigFlags → ConfigFlags) : (s.modFlags f).tloss = s.tloss := rfl
@[simp] theorem State.modFlags_pt (s : State) (f : ConfigFlags → ConfigFlags) : (s.modFlags f).pt = s.pt := rfl
@[simp] theorem State.modFlags_vw (s : State) (f : ConfigFlags → ConfigFlags) : (s.modFlags f).vw = s.vw := rfl
@[simp] theorem State.modFlags_tu (s : State) (f : ConfigFlags → ConfigFlags) : (s.modFlags f).tu = s.tu := rfl
@[simp] theorem State.modFlags_rcu (s : State) (f : ConfigFlags → ConfigFlags) : (s.modFlags f).rcu = s.rcu := rfl
@[simp] theorem State.modFlags_rn (s : State) (f : ConfigFlags → ConfigFlags) : (s.modFlags f).rn = s.rn := rfl
@[simp] theorem State.modFlags_cw (s : State) (f : ConfigFlags → ConfigFlags) : (s.modFlags f).cw = s.cw := rfl

/-! ### zeroQuiet -/

@[simp] theorem State.zeroQuiet_pending (s : State) : (s.zeroQuiet).pending = s.pending := rfl
@[simp] theorem State.zeroQuiet_now (s : State) : (s.zeroQuiet).now = s.now := rfl
@[simp] theorem State.zeroQuiet_startUp (s : State) : (s.zeroQuiet).startUp = s.startUp := rfl
@[simp] theorem State.zeroQuiet_initEnd (s : State) : (s.zeroQuiet).initEnd = s.initEnd := rfl
@[simp] theorem State.zeroQuiet_resetLow (s : State) : (s.zeroQuiet).resetLow = s.resetLow := rfl
@[simp] theorem State.zeroQuiet_freeIndex (s : State) : (s.zeroQuiet).freeIndex = s.freeIndex := rfl
@[simp] theorem State.zeroQuiet_xm (s : State) : (s.zeroQuiet).xm = s.xm := rfl
@[simp] theorem State.zeroQuiet_rc (s : State) : (s.zeroQuiet).rc = s.rc := rfl
@[simp] theorem State.zeroQuiet_tru (s : State) : (s.zeroQuiet).tru = s.tru := rfl
@[simp] theorem State.zeroQuiet_reg (s : State) : (s.zeroQuiet).reg = s.reg := rfl
@[simp] theorem State.zeroQuiet_link (s : State) : (s.zeroQuiet).link = s.link := rfl
@[simp] theorem State.zeroQuiet_tloss (s : State) : (s.zeroQuiet).tloss = s.tloss := rfl
@[simp] theorem State.zeroQuiet_pt (s : State) : (s.zeroQuiet).pt = s.pt := rfl
@[simp] theorem State.zeroQuiet_vw (s : State) : (s.zeroQuiet).vw = { s.vw with quietTime := 0 } := rfl
@[simp] theorem State.zeroQuiet_tu (s : State) : (s.zeroQuiet).tu = s.tu := rfl
@[simp] theorem State.zeroQuiet_rcu (s : State) : (s.zeroQuiet).rcu = s.rcu := rfl
@[simp] theorem State.zeroQuiet_rn (s : State) : (s.zeroQuiet).rn = s.rn := rfl
@[simp] theorem State.zeroQuiet_cw (s : State) : (s.zeroQuiet).cw = s.cw := rfl

/-! ### countRecord -/

@[simp] theorem State.countRecord_pending (s : State) : (s.countRecord).pending = s.pending := rfl
@[simp] theorem State.countRecord_now (s : State) : (s.countRecord).now = s.now := rfl
@[simp] theorem State.countRecord_startUp (s : State) : (s.countRecord).startUp = s.startUp := rfl
@[simp] theorem State.countRecord_initEnd (s : State) : (s.countRecord).initEnd = s.initEnd := rfl
@[simp] theorem State.countRecord_resetLow (s : State) : (s.countRecord).resetLow = s.resetLow := rfl
@[simp] theorem State.countRecord_freeIndex (s : State) : (s.countRecord).freeIndex = s.freeIndex := rfl
@[simp] theorem State.countRecord_xm (s : State) : (s.countRecord).xm = s.xm := rfl
@[simp] theorem State.countRecord_rc (s : State) : (s.countRecord).rc = s.rc := rfl
@[simp] theorem State.countRecord_tru (s : State) : (s.countRecord).tru = s.tru := rfl
@[simp] theorem State.countRecord_reg (s : State) : (s.countRecord).reg = s.reg := rfl
@[simp] theorem State.countRecord_link (s : State) : (s.countRecord).link = s.link := rfl
@[simp] theorem State.countRecord_tloss (s : State) : (s.countRecord).tloss = s.tloss := rfl
@[simp] theorem State.countRecord_pt (s : State) : (s.countRecord).pt = s.pt := rfl
@[simp] theorem State.countRecord_vw (s : State) : (s.countRecord).vw = s.vw := rfl
@[simp] theorem State.countRecord_tu (s : State) : (s.countRecord).tu = s.tu := rfl
@[simp] theorem State.countRecord_rcu (s : State) : (s.countRecord).rcu = s.rcu := rfl
@[simp] theorem State.countRecord_rn (s : State) : (s.countRecord).rn = s.rn := rfl
@[simp] theorem State.countRecord_cw (s : State) : (s.countRecord).cw = { s.cw with orderIndex := s.cw.orderIndex + 1 } := rfl

/-! ### foldTorque -/

@[simp] theorem State.foldTorque_pending (s : State) (v : Int) : (s.foldTorque v).pending = s.pending := rfl
@[simp] theorem State.foldTorque_now (s : State) (v : Int) : (s.foldTorque v).now = s.now := rfl
@[simp] theorem State.foldTorque_startUp (s : State) (v : Int) : (s.foldTorque v).startUp = s.startUp := rfl
@[simp] theorem State.foldTorque_initEnd (s : State) (v : Int) : (s.foldTorque v).initEnd = s.initEnd := rfl
@[simp] theorem State.foldTorque_resetLow (s : State) (v : Int) : (s.foldTorque v).resetLow = s.resetLow := rfl
@[simp] theorem State.foldTorque_freeIndex (s : State) (v : Int) : (s.foldTorque v).freeIndex = s.freeIndex := rfl
@[simp] theorem State.foldTorque_xm (s : State) (v : Int) : (s.foldTorque v).xm = s.xm := rfl
@[simp] theorem State.foldTorque_rc (s : State) (v : Int) : (s.foldTorque v).rc = s.rc := rfl
@[simp] theorem State.foldTorque_tru (s : State) (v : Int) : (s.foldTorque v).tru = s.tru := rfl
@[simp] theorem State.foldTorque_reg (s : State) (v : Int) : (s.foldTorque v).reg = s.reg := rfl
@[simp] theorem State.foldTorque_link (s : State) (v : Int) : (s.foldTorque v).link = s.link := rfl
@[simp] theorem State.foldTorque_tloss (s : State) (v : Int) : (s.foldTorque v).tloss = s.tloss := rfl
@[simp] theorem State.foldTorque_pt (s : State) (v : Int) : (s.foldTorque v).pt = { s.pt with table := modifyAt (WorkEntry.foldTorque v) s.pt.sector s.pt.table } := rfl
@[simp] theorem State.foldTorque_vw (s : State) (v : Int) : (s.foldTorque v).vw = s.vw := rfl
@[simp] theorem State.foldTorque_tu (s : State) (v : Int) : (s.foldTorque v).tu = s.tu := rfl
@[simp] theorem State.foldTorque_rcu (s : State) (v : Int) : (s.foldTorque v).rcu = s.rcu := rfl
@[simp] theorem State.foldTorque_rn (s : State) (v : Int) : (s.foldTorque v).rn = s.rn := rfl
@[simp] theorem State.foldTorque_cw (s : State) (v : Int) : (s.foldTorque v).cw = s.cw := rfl

/-! ### foldVibration -/

@[simp] theorem State.foldVibration_pending (s : State) (g : Chan) (v : Nat) : (s.foldVibration g v).pending = s.pending := rfl
@[simp] theorem State.foldVibration_now (s : State) (g : Chan) (v : Nat) : (s.foldVibration g v).now = s.now := rfl
@[simp] theorem State.foldVibration_startUp (s : State) (g : Chan) (v : Nat) : (s.foldVibration g v).startUp = s.startUp := rfl
@[simp] theorem State.foldVibration_initEnd (s : State) (g : Chan) (v : Nat) : (s.foldVibration g v).initEnd = s.initEnd := rfl
@[simp] theorem State.foldVibration_resetLow (s : State) (g : Chan) (v : Nat) : (s.foldVibration g v).resetLow = s.resetLow := rfl
@[simp] theorem State.foldVibration_freeIndex (s : State) (g : Chan) (v : Nat) : (s.foldVibration g v).freeIndex = s.freeIndex := rfl
@[simp] theorem State.foldVibration_xm (s : State) (g : Chan) (v : Nat) : (s.foldVibration g v).xm = s.xm := rfl
@[simp] theorem State.foldVibration_rc (s : State) (g : Chan) (v : Nat) : (s.foldVibration g v).rc = s.rc := rfl
@[simp] theorem State.foldVibration_tru (s : State) (g : Chan) (v : Nat) : (s.foldVibration g v).tru = s.tru := rfl
@[simp] theorem State.foldVibration_reg (s : State) (g : Chan) (v : Nat) : (s.foldVibration g v).reg = s.reg := rfl
@[simp] theorem State.foldVibration_link (s : State) (g : Chan) (v : Nat) : (s.foldVibration g v).link = s.link := rfl
@[simp] theorem State.foldVibration_tloss (s : State) (g : Chan) (v : Nat) : (s.foldVibration g v).tloss = s.tloss := rfl
@[simp] theorem State.foldVibration_pt (s : State) (g : Chan) (v : Nat) : (s.foldVibration g v).pt = { s.pt with table := modifyAt (WorkEntry.foldVibration g v) s.pt.sector s.pt.table } := rfl
@[simp] theorem State.foldVibration_vw (s : State) (g : Chan) (v : Nat) : (s.foldVibration g v).vw = s.vw := rfl
@[simp] theorem State.foldVibration_tu (s : State) (g : Chan) (v : Nat) : (s.foldVibration g v).tu = s.tu := rfl
@[simp] theorem State.foldVibration_rcu (s : State) (g : Chan) (v : Nat) : (s.foldVibration g v).rcu = s.rcu := rfl
@[simp] theorem State.foldVibration_rn (s : State) (g : Chan) (v : Nat) : (s.foldVibration g v).rn = s.rn := rfl
@[simp] theorem State.foldVibration_cw (s : State) (g : Chan) (v : Nat) : (s.foldVibration g v).cw = s.cw := rfl

/-! ### writePostCount -/

@[simp] theorem State.writePostCount_pending (s : State) (n : Fin 4) : (s.writePostCount n).pending = s.pending := rfl
@[simp] theorem State.writePostCount_now (s : State) (n : Fin 4) : (s.writePostCount n).now = s.now := rfl
@[simp] theorem State.writePostCount_startUp (s : State) (n : Fin 4) : (s.writePostCount n).startUp = s.startUp := rfl
@[simp] theorem State.writePostCount_initEnd (s : State) (n : Fin 4) : (s.writePostCount n).initEnd = s.initEnd := rfl
@[simp] theorem State.writePostCount_resetLow (s : State) (n : Fin 4) : (s.writePostCount n).resetLow = s.resetLow := rfl
@[simp] theorem State.writePostCount_freeIndex (s : State) (n : Fin 4) : (s.writePostCount n).freeIndex = s.freeIndex := rfl
@[simp] theorem State.writePostCount_xm (s : State) (n : Fin 4) : (s.writePostCount n).xm = s.xm.write (slotStateOffset n + 14) (wordN s.rcu.postCount) := rfl
@[simp] theorem State.writePostCount_rc (s : State) (n : Fin 4) : (s.writePostCount n).rc = s.rc := rfl
@[simp] theorem State.writePostCount_tru (s : State) (n : Fin 4) : (s.writePostCount n).tru = s.tru := rfl
@[simp] theorem State.writePostCount_reg (s : State) (n : Fin 4) : (s.writePostCount n).reg = s.reg := rfl
@[simp] theorem State.writePostCount_link (s : State) (n : Fin 4) : (s.writePostCount n).link = s.link := rfl
@[simp] theorem State.writePostCount_tloss (s : State) (n : Fin 4) : (s.writePostCount n).tloss = s.tloss := rfl
@[simp] theorem State.writePostCount_pt (s : State) (n : Fin 4) : (s.writePostCount n).pt = s.pt := rfl
@[simp] theorem State.writePostCount_vw (s : State) (n : Fin 4) : (s.writePostCount n).vw = s.vw := rfl
@[simp] theorem State.writePostCount_tu (s : State) (n : Fin 4) : (s.writePostCount n).tu = s.tu := rfl
@[simp] theorem State.writePostCount_rcu (s : State) (n : Fin 4) : (s.writePostCount n).rcu = s.rcu := rfl
@[simp] theorem State.writePostCount_rn (s : State) (n : Fin 4) : (s.writePostCount n).rn = s.rn := rfl
@[simp] theorem State.writePostCount_cw (s : State) (n : Fin 4) : (s.writePostCount n).cw = s.cw := rfl

/-! ### endWalk -/

@[simp] theorem State.endWalk_pending (s : State) (o : WalkOutcome) : (s.endWalk o).pending = s.pending := rfl
@[simp] theorem State.endWalk_now (s : State) (o : WalkOutcome) : (s.endWalk o).now = s.now := rfl
@[simp] theorem State.endWalk_startUp (s : State) (o : WalkOutcome) : (s.endWalk o).startUp = s.startUp := rfl
@[simp] theorem State.endWalk_initEnd (s : State) (o : WalkOutcome) : (s.endWalk o).initEnd = s.initEnd := rfl
@[simp] theorem State.endWalk_resetLow (s : State) (o : WalkOutcome) : (s.endWalk o).resetLow = s.resetLow := rfl
@[simp] theorem State.endWalk_freeIndex (s : State) (o : WalkOutcome) : (s.endWalk o).freeIndex = s.freeIndex := rfl
@[simp] theorem State.endWalk_xm (s : State) (o : WalkOutcome) : (s.endWalk o).xm = s.xm := rfl
@[simp] theorem State.endWalk_rc (s : State) (o : WalkOutcome) : (s.endWalk o).rc = s.rc := rfl
@[simp] theorem State.endWalk_tru (s : State) (o : WalkOutcome) : (s.endWalk o).tru = s.tru := rfl
@[simp] theorem State.endWalk_reg (s : State) (o : WalkOutcome) : (s.endWalk o).reg = s.reg := rfl
@[simp] theorem State.endWalk_link (s : State) (o : WalkOutcome) : (s.endWalk o).link = s.link := rfl
@[simp] theorem State.endWalk_tloss (s : State) (o : WalkOutcome) : (s.endWalk o).tloss = s.tloss := rfl
@[simp] theorem State.endWalk_pt (s : State) (o : WalkOutcome) : (s.endWalk o).pt = s.pt := rfl
@[simp] theorem State.endWalk_vw (s : State) (o : WalkOutcome) : (s.endWalk o).vw = s.vw := rfl
@[simp] theorem State.endWalk_tu (s : State) (o : WalkOutcome) : (s.endWalk o).tu = s.tu := rfl
@[simp] theorem State.endWalk_rcu (s : State) (o : WalkOutcome) : (s.endWalk o).rcu = s.rcu := rfl
@[simp] theorem State.endWalk_rn (s : State) (o : WalkOutcome) : (s.endWalk o).rn = { s.rn with notice := s.rn.notice ||| Notice.chain.mark } := rfl
@[simp] theorem State.endWalk_cw (s : State) (o : WalkOutcome) : (s.endWalk o).cw = { s.cw with walking := false, outcome := o } := rfl

/-! ### tick -/

@[simp] theorem State.tick_pending (s : State) : (s.tick).pending = s.pending := rfl
@[simp] theorem State.tick_now (s : State) : (s.tick).now = s.now + 1 := rfl
@[simp] theorem State.tick_startUp (s : State) : (s.tick).startUp = s.startUp := rfl
@[simp] theorem State.tick_initEnd (s : State) : (s.tick).initEnd = s.initEnd := rfl
@[simp] theorem State.tick_resetLow (s : State) : (s.tick).resetLow = s.resetLow := rfl
@[simp] theorem State.tick_freeIndex (s : State) : (s.tick).freeIndex = s.freeIndex := rfl
@[simp] theorem State.tick_xm (s : State) : (s.tick).xm = s.xm := rfl
@[simp] theorem State.tick_rc (s : State) : (s.tick).rc = s.rc := rfl
@[simp] theorem State.tick_tru (s : State) : (s.tick).tru = s.tru := rfl
@[simp] theorem State.tick_reg (s : State) : (s.tick).reg = s.reg := rfl
@[simp] theorem State.tick_link (s : State) : (s.tick).link = s.link := rfl
@[simp] theorem State.tick_tloss (s : State) : (s.tick).tloss = s.tloss := rfl
@[simp] theorem State.tick_pt (s : State) : (s.tick).pt = s.pt := rfl
@[simp] theorem State.tick_vw (s : State) : (s.tick).vw = s.vw := rfl
@[simp] theorem State.tick_tu (s : State) : (s.tick).tu = s.tu := rfl
@[simp] theorem State.tick_rcu (s : State) : (s.tick).rcu = s.rcu := rfl
@[simp] theorem State.tick_rn (s : State) : (s.tick).rn = s.rn := rfl
@[simp] theorem State.tick_cw (s : State) : (s.tick).cw = s.cw := rfl

end Sys2Proof.Machine
end

