-- ==== Sys2Proof/Laws/Trips.lean ====
section
/-! SUPPORT. What a hand-over to a transmitter, a slot choice and a report of a cause can do, said once each. -/

namespace Sys2Proof.Machine

/-! ### Containers -/

@[simp] theorem Pair.get_set_self {α : Type} (p : Pair α) (ch : Chan) (v : α) : (p.set ch v).get ch = v := by
  cases ch <;> rfl

@[simp] theorem Pair.get_set_other {α : Type} (p : Pair α) (ch : Chan) (v : α) : (p.set ch v).get (otherChan ch) = p.get (otherChan ch) := by
  cases ch <;> rfl

theorem Pair.get_set {α : Type} (p : Pair α) (ch k : Chan) (v : α) : (p.set ch v).get k = if k = ch then v else p.get k := by
  cases ch <;> cases k <;> rfl

@[simp] theorem Pair.get_map {α β : Type} (p : Pair α) (f : α → β) (ch : Chan) : (p.map f).get ch = f (p.get ch) := by
  cases ch <;> rfl

@[simp] theorem Pair.get_build {α : Type} (f : Chan → α) (ch : Chan) : (Pair.build f).get ch = f ch := by
  cases ch <;> rfl

@[simp] theorem Pair.set_get {α : Type} (p : Pair α) (ch : Chan) : p.set ch (p.get ch) = p := by
  cases ch <;> rfl

@[simp] theorem Pair.set_set {α : Type} (p : Pair α) (ch : Chan) (v w : α) : (p.set ch v).set ch w = p.set ch w := by
  cases ch <;> rfl

/-- Two pairs with the same values are one. -/
theorem Pair.ext_get {α : Type} {p q : Pair α} (h : ∀ ch, p.get ch = q.get ch) : p = q := by
  cases p; cases q; have ha := h .a; have hb := h .b; simp only [Pair.get] at ha hb; simp [ha, hb]

theorem Octet.get_build {α : Type} (f : Fin 8 → α) (i : Fin 8) : (Octet.build f).get i = f i := by
  match i with
  | 0 => rfl
  | 1 => rfl
  | 2 => rfl
  | 3 => rfl
  | 4 => rfl
  | 5 => rfl
  | 6 => rfl
  | 7 => rfl

@[simp] theorem Octet.get_map {α β : Type} (o : Octet α) (f : α → β) (i : Fin 8) : (o.map f).get i = f (o.get i) :=
  Octet.get_build _ i

theorem Octet.get_set {α : Type} (o : Octet α) (i j : Fin 8) (v : α) : (o.set i v).get j = if j = i then v else o.get j :=
  Octet.get_build _ j

/-- Two octets with the same values are one. -/
theorem Octet.ext_get {α : Type} {o p : Octet α} (h : ∀ i, o.get i = p.get i) : o = p := by
  cases o; cases p
  have := h 0; have := h 1; have := h 2; have := h 3; have := h 4; have := h 5; have := h 6; have := h 7
  simp_all [Octet.get]

/-- A member of an octet's list is the value at one of its places. -/
theorem Octet.mem_toList {α : Type} (o : Octet α) (x : α) : x ∈ o.toList ↔ ∃ i, o.get i = x := by
  constructor
  · intro h
    simp only [Octet.toList, List.mem_cons, List.not_mem_nil, or_false] at h
    rcases h with rfl | rfl | rfl | rfl | rfl | rfl | rfl | rfl
    exacts [⟨0, rfl⟩, ⟨1, rfl⟩, ⟨2, rfl⟩, ⟨3, rfl⟩, ⟨4, rfl⟩, ⟨5, rfl⟩, ⟨6, rfl⟩, ⟨7, rfl⟩]
  · rintro ⟨i, rfl⟩
    match i with
    | 0 => simp [Octet.toList, Octet.get]
    | 1 => simp [Octet.toList, Octet.get]
    | 2 => simp [Octet.toList, Octet.get]
    | 3 => simp [Octet.toList, Octet.get]
    | 4 => simp [Octet.toList, Octet.get]
    | 5 => simp [Octet.toList, Octet.get]
    | 6 => simp [Octet.toList, Octet.get]
    | 7 => simp [Octet.toList, Octet.get]

/-- A test of all values of an octet. -/
theorem Octet.all_toList {α : Type} (o : Octet α) (p : α → Bool) : o.toList.all p = true ↔ ∀ i, p (o.get i) = true := by
  simp only [List.all_eq_true, Octet.mem_toList, forall_exists_index, forall_apply_eq_imp_iff]

/-- A test of some value of an octet. -/
theorem Octet.any_toList {α : Type} (o : Octet α) (p : α → Bool) : o.toList.any p = true ↔ ∃ i, p (o.get i) = true := by
  simp only [List.any_eq_true, Octet.mem_toList, exists_exists_eq_and]

/-- sensorNumbers holds every sensor channel. -/
@[simp] theorem mem_sensorNumbers (i : Fin 8) : i ∈ sensorNumbers := by revert i; decide

/-! ### The transmitter -/

/-- The check of the frames is R64's. -/
theorem crc16_spec (bytes : List Byte) : crc16 bytes = checkOf bytes := by
  have hbit : ∀ (r : Word) (b : Bool), crcBit r b = r <<< 1 ^^^ if r.getLsbD 15 ≠ b then 0x1021#16 else 0 := by
    intro r b
    unfold crcBit
    rw [show r.msb = r.getLsbD 15 from BitVec.msb_eq_getLsbD_last r]
    cases r.getLsbD 15 <;> cases b <;> simp
  have hstep : crcBit = fun (r : Word) b => r <<< 1 ^^^ if r.getLsbD 15 ≠ b then 0x1021#16 else 0 := by funext r b; exact hbit r b
  unfold crc16 checkOf
  generalize 0xFFFF#16 = r
  induction bytes generalizing r with
  | nil => rfl
  | cons b bytes ih =>
    rw [List.flatMap_cons, List.foldl_append, List.foldl_cons, ih]
    congr 1
    unfold crcByte; rw [hstep]; rfl

/-- The bytes of a command frame are those of R73 and R186. -/
theorem Command.bytes_spec (c : Command) (seq : Nat) : c.bytes seq = commandFrame c seq := by
  unfold Command.bytes commandFrame; simp only [crc16_spec]; rfl

/-- A hand-over does what R73 to R76 say, whatever the stage. -/
theorem Link.handOver_spec (l : Link) (c : Command) (now : Nat) : FrameHanded c l (l.handOver c now) now := by
  unfold FrameHanded Link.handOver Link.startFrame; rw [Command.bytes_spec]; cases h : l.sending <;> rfl

/-! ### Slots -/

/-- The choice takes the lowest-numbered free slot (R147). -/
theorem State.chooseSlot_spec (s : State) : LowestFreeSlot s.xm s.chooseSlot := by
  have hfree : ∀ n, s.slotFree n = true ↔ s.xm.read (slotStateOffset n) = 0 ∨ s.xm.read (slotStateOffset n) = 3 := by
    intro n; simp [State.slotFree, State.slotWord]
  have hno : ∀ n, s.slotFree n = false ↔ s.xm.read (slotStateOffset n) ≠ 0 ∧ s.xm.read (slotStateOffset n) ≠ 3 := by
    intro n; simp [State.slotFree, State.slotWord]
  unfold State.chooseSlot LowestFreeSlot
  simp only [List.find?]
  cases h0 : s.slotFree 0
  · cases h1 : s.slotFree 1
    · cases h2 : s.slotFree 2
      · cases h3 : s.slotFree 3
        · intro j; fin_cases j <;> simp_all
        · refine ⟨(hfree 3).1 h3, fun j hj => ?_⟩; fin_cases j <;> simp_all
      · refine ⟨(hfree 2).1 h2, fun j hj => ?_⟩; fin_cases j <;> simp_all
    · refine ⟨(hfree 1).1 h1, fun j hj => ?_⟩; fin_cases j <;> simp_all
  · refine ⟨(hfree 0).1 h0, fun j hj => ?_⟩; fin_cases j <;> simp_all

/-! ### Reports of causes -/

/-- The words of a chronicle entry, one by one (R131). -/
theorem chronicleWords_getD (number : Nat) (c : Cause) (slot : Option (Fin 4)) (snap : Nat) (prior : DriveState) (k : Nat)
    (hk : k < 8) : (chronicleWords number c slot snap prior).getD k 0 = entryWord number c slot snap prior k := by
  rcases k with _ | _ | _ | _ | _ | _ | _ | _ | k
  · rfl
  · rfl
  · rfl
  · rfl
  · rfl
  · cases slot <;> rfl
  · rfl
  · rfl
  · exact absurd hk (by omega)

/-- A read after the writing of entry i: its word inside the entry, the old word outside (R130, R131). -/
theorem Memory.read_writeEntry (m : Memory) (i : Fin 32) (ws : List Word) (h8 : ws.length = 8) (a : Nat)
    (ha : a < Config.xmWords) :
    (m.writeEntry i ws).read a =
      if chronicleOffset i ≤ a ∧ a < chronicleOffset i + 8 then ws.getD (a - chronicleOffset i) 0 else m.read a := by
  unfold Memory.writeEntry
  rw [Memory.read_writeBlock _ _ _ _ ha, Memory.read_writeBlock _ _ _ _ ha]
  simp only [List.length_take, List.length_drop, h8]
  by_cases h1 : chronicleOffset i ≤ a ∧ a < chronicleOffset i + 2
  · rw [dif_pos (by omega), if_pos (by omega), List.getElem_take, List.getD_eq_getElem _ _ (by omega)]
  · rw [dif_neg (by omega)]
    by_cases h2 : chronicleOffset i + 2 ≤ a ∧ a < chronicleOffset i + 8
    · rw [dif_pos (by omega), if_pos (by omega), List.getElem_drop, List.getD_eq_getElem _ _ (by omega)]
      congr 1; omega
    · rw [dif_neg (by omega), if_neg (by omega)]

@[simp] theorem State.firstCause_pending (s : State) (c : Cause) : (s.firstCause c).pending = s.pending := by
  have h : s.enterTripped.chooseSlot = s.chooseSlot := rfl
  unfold State.firstCause State.takeSlot; simp only [h]; cases s.chooseSlot <;> rfl

@[simp] theorem State.firstCause_now (s : State) (c : Cause) : (s.firstCause c).now = s.now := by
  have h : s.enterTripped.chooseSlot = s.chooseSlot := rfl
  unfold State.firstCause State.takeSlot; simp only [h]; cases s.chooseSlot <;> rfl

@[simp] theorem State.firstCause_startUp (s : State) (c : Cause) : (s.firstCause c).startUp = s.startUp := by
  have h : s.enterTripped.chooseSlot = s.chooseSlot := rfl
  unfold State.firstCause State.takeSlot; simp only [h]; cases s.chooseSlot <;> rfl

@[simp] theorem State.firstCause_initEnd (s : State) (c : Cause) : (s.firstCause c).initEnd = s.initEnd := by
  have h : s.enterTripped.chooseSlot = s.chooseSlot := rfl
  unfold State.firstCause State.takeSlot; simp only [h]; cases s.chooseSlot <;> rfl

@[simp] theorem State.firstCause_resetLow (s : State) (c : Cause) : (s.firstCause c).resetLow = s.resetLow := by
  have h : s.enterTripped.chooseSlot = s.chooseSlot := rfl
  unfold State.firstCause State.takeSlot; simp only [h]; cases s.chooseSlot <;> rfl

@[simp] theorem State.firstCause_freeIndex (s : State) (c : Cause) : (s.firstCause c).freeIndex = s.freeIndex := by
  have h : s.enterTripped.chooseSlot = s.chooseSlot := rfl
  unfold State.firstCause State.takeSlot; simp only [h]; cases s.chooseSlot <;> rfl

@[simp] theorem State.firstCause_tloss (s : State) (c : Cause) : (s.firstCause c).tloss = s.tloss := by
  have h : s.enterTripped.chooseSlot = s.chooseSlot := rfl
  unfold State.firstCause State.takeSlot; simp only [h]; cases s.chooseSlot <;> rfl

@[simp] theorem State.firstCause_pt (s : State) (c : Cause) : (s.firstCause c).pt = s.pt := by
  have h : s.enterTripped.chooseSlot = s.chooseSlot := rfl
  unfold State.firstCause State.takeSlot; simp only [h]; cases s.chooseSlot <;> rfl

@[simp] theorem State.firstCause_vw (s : State) (c : Cause) : (s.firstCause c).vw = s.vw := by
  have h : s.enterTripped.chooseSlot = s.chooseSlot := rfl
  unfold State.firstCause State.takeSlot; simp only [h]; cases s.chooseSlot <;> rfl

@[simp] theorem State.firstCause_cw (s : State) (c : Cause) : (s.firstCause c).cw = s.cw := by
  have h : s.enterTripped.chooseSlot = s.chooseSlot := rfl
  unfold State.firstCause State.takeSlot; simp only [h]; cases s.chooseSlot <;> rfl

@[simp] theorem State.firstCause_rc (s : State) (c : Cause) :
    (s.firstCause c).rc = { s.rc with drive := .tripped, permit := false, breakAway := none, stopHold := none } := by
  have h : s.enterTripped.chooseSlot = s.chooseSlot := rfl
  unfold State.firstCause State.takeSlot; simp only [h]; cases s.chooseSlot <;> rfl

@[simp] theorem State.firstCause_tru (s : State) (c : Cause) :
    (s.firstCause c).tru = { s.tru with tcmd := 0, iref := ⟨0, 0⟩, excessCount := 0, imbCount := 0 } := by
  have h : s.enterTripped.chooseSlot = s.chooseSlot := rfl
  unfold State.firstCause State.takeSlot; simp only [h]; cases s.chooseSlot <;> rfl

@[simp] theorem State.firstCause_reg (s : State) (c : Cause) :
    (s.firstCause c).reg = s.reg.map Regulator.block := by
  have h : s.enterTripped.chooseSlot = s.chooseSlot := rfl
  unfold State.firstCause State.takeSlot; simp only [h]; cases s.chooseSlot <;> rfl

@[simp] theorem State.firstCause_link (s : State) (c : Cause) :
    (s.firstCause c).link = s.link.map fun l => l.handOver blockCommand s.now := by
  have h : s.enterTripped.chooseSlot = s.chooseSlot := rfl
  unfold State.firstCause State.takeSlot; simp only [h]; cases s.chooseSlot <;> rfl

@[simp] theorem State.firstCause_rn (s : State) (c : Cause) :
    (s.firstCause c).rn = { s.rn with notice := s.rn.notice ||| Notice.trip.mark } := by
  have h : s.enterTripped.chooseSlot = s.chooseSlot := rfl
  unfold State.firstCause State.takeSlot; simp only [h]; cases s.chooseSlot <;> rfl

@[simp] theorem State.firstCause_tu (s : State) (c : Cause) :
    (s.firstCause c).tu = { s.tu with
      latched := [c], firstOut := some c, tripCount := (s.tu.tripCount + 1) % 4294967296, window := some 0
      causeList := [c], openEntry := some s.tu.nextIndex, nextIndex := s.tu.nextIndex + 1 } := by
  have h : s.enterTripped.chooseSlot = s.chooseSlot := rfl
  unfold State.firstCause State.takeSlot; simp only [h]; cases s.chooseSlot <;> rfl

@[simp] theorem State.firstCause_xm (s : State) (c : Cause) :
    (s.firstCause c).xm = (match s.chooseSlot with | some n => s.xm.write (slotStateOffset n) 1 | none => s.xm).writeEntry
      s.tu.nextIndex (chronicleWords ((s.tu.tripCount + 1) % 4294967296) c s.chooseSlot s.tru.snapNumber s.rc.drive) := by
  have h : s.enterTripped.chooseSlot = s.chooseSlot := rfl
  unfold State.firstCause State.takeSlot; simp only [h]; cases s.chooseSlot <;> rfl

/-- Record capture at a first cause: the slot chosen, with a copy in flight, or nothing. -/
theorem State.firstCause_rcu (s : State) (c : Cause) :
    ∃ j, (s.firstCause c).rcu =
      match s.chooseSlot with
      | some n =>
        { s.rcu with
          capture := some n, preCount := min Config.prePlaces s.rcu.fillCount, postCount := 0, copy := some j }
      | none => s.rcu := by
  have h : s.enterTripped.chooseSlot = s.chooseSlot := rfl
  unfold State.firstCause State.takeSlot; simp only [h]
  cases s.chooseSlot
  · exact ⟨⟨[], []⟩, rfl⟩
  · exact ⟨_, rfl⟩

/-- The copy that a first cause with a free slot begins holds the header and the pre-trigger snapshots of the trip (R149, R150). -/
theorem State.firstCause_copy (s : State) (c : Cause) (n : Fin 4) (h : s.chooseSlot = some n) :
    (s.firstCause c).rcu.copy = some
      ⟨s.headerWords ((s.tu.tripCount + 1) % 4294967296) c s.tru.snapNumber (s.now - s.rcu.lastHandoff) s.rc.drive
        (min Config.prePlaces s.rcu.fillCount),
       preTrigger s.rcu.ring s.tru.snapNumber (min Config.prePlaces s.rcu.fillCount)⟩ := by
  have hc : s.enterTripped.chooseSlot = some n := h
  have hrx : ∀ ch, (s.enterTripped.link.get ch).rx = (s.link.get ch).rx := by
    intro ch; cases ch <;> (simp only [State.enterTripped, Pair.map, Pair.get, Link.handOver]; split <;> rfl)
  have hw : s.enterTripped.receiveWord = s.receiveWord := by
    have a := hrx .a; have b := hrx .b; simp only [Pair.get] at a b
    unfold State.receiveWord; rw [a, b]; rfl
  unfold State.firstCause State.takeSlot; simp only [h, hc, State.headerWords]; rw [← hw]; rfl

/-- A run of the ring whose places are all held gives them in order (R150). -/
theorem ringRun_spec (ring : List (Nat × Snapshot)) (count start : Nat)
    (h : ∀ i < count, (ringAt ring ((start + i) % 256)).isSome = true) :
    (ringRun ring start count).length = count ∧ ∀ i < count, (ringRun ring start count)[i]? = ringAt ring ((start + i) % 256) := by
  induction count generalizing start with
  | zero => simp [ringRun]
  | succ n ih =>
    obtain ⟨l, e⟩ := ih (start + 1) (fun i hi => by
      have := h (i + 1) (by omega); rw [show start + 1 + i = start + (i + 1) by omega]; exact this)
    obtain ⟨x, hx⟩ := Option.isSome_iff_exists.1 (h 0 (by omega))
    have hp : ringAt ring (start % Config.ringPlaces) = some x := hx
    simp only [ringRun, hp, Option.toList]
    refine ⟨by simp [l], fun i hi => ?_⟩
    cases i with
    | zero => simpa using hx.symm
    | succ i => have := e i (by omega); rw [show start + (i + 1) = start + 1 + i by omega, ← this]; simp

/-- The copy that a first cause with a free slot begins holds the trip (R149, R150, 11.5). -/
theorem State.headerWords_spec (s : State) (c : Cause) :
    CopyHoldsTrip c s
      ⟨s.headerWords ((s.tu.tripCount + 1) % 4294967296) c s.tru.snapNumber (s.now - s.rcu.lastHandoff) s.rc.drive
        (min Config.prePlaces s.rcu.fillCount),
       preTrigger s.rcu.ring s.tru.snapNumber (min Config.prePlaces s.rcu.fillCount)⟩ := by
  refine ⟨rfl, rfl, rfl, rfl, rfl, rfl, rfl, rfl, rfl, ?_, rfl, rfl, ?_, rfl, rfl, rfl, rfl, rfl, ?_, ?_, ?_, ?_⟩
  · show some (sectorWord _ _) = _; unfold sectorWord; cases s.pt.tracking <;> rfl
  · show some (wordN _) = _; cases s.rc.isolated.a <;> cases s.rc.isolated.b <;> rfl
  · intro k h1 h2; interval_cases k <;> rfl
  · intro i; fin_cases i <;> exact ⟨rfl, rfl, rfl⟩
  · intro k h1 h2
    unfold State.headerWords
    refine (List.getElem?_append_right (show 55 ≤ k - 1 by omega)).trans ?_
    show (List.replicate 72 (0 : Word))[k - 1 - 55]? = _
    rw [List.getElem?_replicate, if_pos (by omega)]
  · intro h; exact ringRun_spec _ _ _ h

/-- A report of a first cause leaves what R11, R31, R34, R45, R76, R129, R131 and R147 to R149 say. -/
theorem State.firstCause_spec (s : State) (c : Cause) : FirstCauseLeaves c s (s.firstCause c) := by
  obtain ⟨j, hj⟩ := s.firstCause_rcu c
  refine ⟨s.chooseSlot, s.chooseSlot_spec, ?_, ?_, ?_, ?_⟩
  · intro ch
    rw [State.firstCause_link, Pair.get_map]; exact Link.handOver_spec _ _ _
  · intro a ha
    rw [State.firstCause_xm, Memory.read_writeEntry _ _ _ rfl _ ha]
    by_cases hin : chronicleOffset s.tu.nextIndex ≤ a ∧ a < chronicleOffset s.tu.nextIndex + 8
    · rw [if_pos hin, if_pos hin]
      exact chronicleWords_getD _ _ _ _ _ _ (by omega)
    · rw [if_neg hin, if_neg hin]
      cases hs : s.chooseSlot with
      | none => simp
      | some n =>
        simp only [Option.map_some, Option.some.injEq]
        rw [Memory.read_write _ _ _ _ ha]
        by_cases h : a = slotStateOffset n
        · simp [h]
        · rw [if_neg h, if_neg (Ne.symm h)]
  · intro h
    obtain ⟨n, hn⟩ := Option.isSome_iff_exists.1 h
    exact ⟨_, s.firstCause_copy c n hn, s.headerWords_spec c⟩
  · have h : ∀ u : State, u = { s with
        xm := u.xm, link := u.link, rc := u.rc, tru := u.tru, reg := u.reg, tu := u.tu, rcu := u.rcu, rn := u.rn } →
      u.rc = (s.firstCause c).rc → u = u := fun _ _ _ => rfl
    have hr : (s.firstCause c).rcu = match s.chooseSlot with
      | some n =>
        { s.rcu with
          capture := some n, preCount := min 96 s.rcu.fillCount, postCount := 0, copy := (s.firstCause c).rcu.copy }
      | none => s.rcu := by rw [hj]; cases s.chooseSlot <;> rfl
    have hx : s.firstCause c = { s with
        xm := (s.firstCause c).xm, link := (s.firstCause c).link, rc := (s.firstCause c).rc
        tru := (s.firstCause c).tru, reg := (s.firstCause c).reg, tu := (s.firstCause c).tu
        rcu := (s.firstCause c).rcu, rn := (s.firstCause c).rn } := by
      have h : s.enterTripped.chooseSlot = s.chooseSlot := rfl
      unfold State.firstCause State.takeSlot; simp only [h]; cases s.chooseSlot <;> rfl
    rw [hr] at hx
    exact hx.trans (by simp only [State.firstCause_rc, State.firstCause_tru, State.firstCause_reg, State.firstCause_tu,
      State.firstCause_rn]; rfl)

/-- A report of a further cause leaves what R132 says. -/
theorem State.furtherCause_spec (s : State) (c : Cause) : FurtherCauseLeaves c s (s.furtherCause c) := by
  unfold FurtherCauseLeaves State.furtherCause
  by_cases h4 : s.tu.causeList.length < 8
  · have h5 : s.tu.causeList.length < Config.causeListMax := h4
    by_cases h1 : c ∈ s.tu.latched <;> by_cases h2 : c ∈ s.tu.causeList <;> cases h3 : s.tu.window <;> simp [h1, h2, h4, h5]
  · have h5 : ¬s.tu.causeList.length < Config.causeListMax := h4
    by_cases h1 : c ∈ s.tu.latched <;> by_cases h2 : c ∈ s.tu.causeList <;> cases h3 : s.tu.window <;> simp [h1, h2, h4, h5]

/-- A report of a cause leaves what R128 says. -/
theorem State.report_spec (s : State) (c : Cause) : CauseReported c s (s.report c) := by
  unfold CauseReported State.report
  split
  · exact s.furtherCause_spec c
  · exact s.firstCause_spec c

/-- The reports of several causes, one after the other, leave what R128 says. -/
theorem State.reports_spec (s : State) (l : List Cause) : CausesReported l s (l.foldl State.report s) := by
  induction l generalizing s with
  | nil => rfl
  | cons c l ih => exact ⟨s.report c, s.report_spec c, ih _⟩

end Sys2Proof.Machine
end

