-- ==== Sys2Proof/Laws/Frames.lean ====
section
/-! SUPPORT. The frame of each shared operation: one lemma naming every field of the state that the operation keeps. -/

namespace Sys2Proof.Machine

@[simp] theorem State.furtherCause_keeps (s : State) (c : Cause) :
    (s.furtherCause c).pending = s.pending ∧ (s.furtherCause c).now = s.now ∧ (s.furtherCause c).startUp = s.startUp ∧
    (s.furtherCause c).initEnd = s.initEnd ∧ (s.furtherCause c).resetLow = s.resetLow ∧ (s.furtherCause c).freeIndex =
    s.freeIndex ∧ (s.furtherCause c).xm = s.xm ∧ (s.furtherCause c).rc = s.rc ∧ (s.furtherCause c).tru = s.tru ∧
    (s.furtherCause c).reg = s.reg ∧ (s.furtherCause c).link = s.link ∧ (s.furtherCause c).tloss = s.tloss ∧ (s.furtherCause
    c).pt = s.pt ∧ (s.furtherCause c).vw = s.vw ∧ (s.furtherCause c).rcu = s.rcu ∧ (s.furtherCause c).rn = s.rn ∧
    (s.furtherCause c).cw = s.cw := by simp [State.furtherCause]

@[simp] theorem State.report_keeps (s : State) (c : Cause) :
    (s.report c).pending = s.pending ∧ (s.report c).now = s.now ∧ (s.report c).startUp = s.startUp ∧ (s.report c).initEnd =
    s.initEnd ∧ (s.report c).resetLow = s.resetLow ∧ (s.report c).freeIndex = s.freeIndex ∧ (s.report c).tloss = s.tloss ∧
    (s.report c).pt = s.pt ∧ (s.report c).vw = s.vw ∧ (s.report c).cw = s.cw := by unfold State.report; split <;> simp

@[simp] theorem State.reportIf_keeps (s : State) (b : Bool) (c : Cause) :
    (s.reportIf b c).pending = s.pending ∧ (s.reportIf b c).now = s.now ∧ (s.reportIf b c).startUp = s.startUp ∧ (s.reportIf
    b c).initEnd = s.initEnd ∧ (s.reportIf b c).resetLow = s.resetLow ∧ (s.reportIf b c).freeIndex = s.freeIndex ∧
    (s.reportIf b c).tloss = s.tloss ∧ (s.reportIf b c).pt = s.pt ∧ (s.reportIf b c).vw = s.vw ∧ (s.reportIf b c).cw = s.cw := by
  unfold State.reportIf; (repeat' (split <;> try dsimp only)) <;> simp

@[simp] theorem State.notifyIf_keeps (s : State) (b : Bool) (n : Notice) :
    (s.notifyIf b n).pending = s.pending ∧ (s.notifyIf b n).now = s.now ∧ (s.notifyIf b n).startUp = s.startUp ∧ (s.notifyIf
    b n).initEnd = s.initEnd ∧ (s.notifyIf b n).resetLow = s.resetLow ∧ (s.notifyIf b n).freeIndex = s.freeIndex ∧
    (s.notifyIf b n).xm = s.xm ∧ (s.notifyIf b n).rc = s.rc ∧ (s.notifyIf b n).tru = s.tru ∧ (s.notifyIf b n).reg = s.reg ∧
    (s.notifyIf b n).link = s.link ∧ (s.notifyIf b n).tloss = s.tloss ∧ (s.notifyIf b n).pt = s.pt ∧ (s.notifyIf b n).vw =
    s.vw ∧ (s.notifyIf b n).tu = s.tu ∧ (s.notifyIf b n).rcu = s.rcu ∧ (s.notifyIf b n).cw = s.cw := by
  unfold State.notifyIf; (repeat' (split <;> try dsimp only)) <;> simp

@[simp] theorem State.notifyDerate_keeps (s : State) (b : Bool) :
    (s.notifyDerate b).pending = s.pending ∧ (s.notifyDerate b).now = s.now ∧ (s.notifyDerate b).startUp = s.startUp ∧
    (s.notifyDerate b).initEnd = s.initEnd ∧ (s.notifyDerate b).resetLow = s.resetLow ∧ (s.notifyDerate b).freeIndex =
    s.freeIndex ∧ (s.notifyDerate b).xm = s.xm ∧ (s.notifyDerate b).rc = s.rc ∧ (s.notifyDerate b).tru = s.tru ∧
    (s.notifyDerate b).reg = s.reg ∧ (s.notifyDerate b).link = s.link ∧ (s.notifyDerate b).tloss = s.tloss ∧ (s.notifyDerate
    b).pt = s.pt ∧ (s.notifyDerate b).vw = s.vw ∧ (s.notifyDerate b).tu = s.tu ∧ (s.notifyDerate b).rcu = s.rcu ∧
    (s.notifyDerate b).cw = s.cw := by simp [State.notifyDerate]

@[simp] theorem State.notifyLevel_keeps (s : State) (b : Bool) :
    (s.notifyLevel b).pending = s.pending ∧ (s.notifyLevel b).now = s.now ∧ (s.notifyLevel b).startUp = s.startUp ∧
    (s.notifyLevel b).initEnd = s.initEnd ∧ (s.notifyLevel b).resetLow = s.resetLow ∧ (s.notifyLevel b).freeIndex =
    s.freeIndex ∧ (s.notifyLevel b).xm = s.xm ∧ (s.notifyLevel b).rc = s.rc ∧ (s.notifyLevel b).tru = s.tru ∧ (s.notifyLevel
    b).reg = s.reg ∧ (s.notifyLevel b).link = s.link ∧ (s.notifyLevel b).tloss = s.tloss ∧ (s.notifyLevel b).pt = s.pt ∧
    (s.notifyLevel b).vw = s.vw ∧ (s.notifyLevel b).tu = s.tu ∧ (s.notifyLevel b).rcu = s.rcu ∧ (s.notifyLevel b).cw = s.cw := by simp [State.notifyLevel]

@[simp] theorem State.setDerate_keeps (s : State) (d : Derate) :
    (s.setDerate d).pending = s.pending ∧ (s.setDerate d).now = s.now ∧ (s.setDerate d).startUp = s.startUp ∧ (s.setDerate
    d).initEnd = s.initEnd ∧ (s.setDerate d).resetLow = s.resetLow ∧ (s.setDerate d).freeIndex = s.freeIndex ∧ (s.setDerate
    d).xm = s.xm ∧ (s.setDerate d).rc = s.rc ∧ (s.setDerate d).tru = s.tru ∧ (s.setDerate d).reg = s.reg ∧ (s.setDerate
    d).link = s.link ∧ (s.setDerate d).tloss = s.tloss ∧ (s.setDerate d).pt = s.pt ∧ (s.setDerate d).tu = s.tu ∧
    (s.setDerate d).rcu = s.rcu ∧ (s.setDerate d).cw = s.cw := by
  unfold State.setDerate; (try dsimp only); (repeat' (split <;> try dsimp only)) <;> simp

@[simp] theorem State.establishBlind_keeps (s : State) :
    (s.establishBlind).pending = s.pending ∧ (s.establishBlind).now = s.now ∧ (s.establishBlind).startUp = s.startUp ∧
    (s.establishBlind).initEnd = s.initEnd ∧ (s.establishBlind).resetLow = s.resetLow ∧ (s.establishBlind).freeIndex =
    s.freeIndex ∧ (s.establishBlind).xm = s.xm ∧ (s.establishBlind).rc = s.rc ∧ (s.establishBlind).tru = s.tru ∧
    (s.establishBlind).reg = s.reg ∧ (s.establishBlind).link = s.link ∧ (s.establishBlind).tloss = s.tloss ∧
    (s.establishBlind).pt = s.pt ∧ (s.establishBlind).tu = s.tu ∧ (s.establishBlind).rcu = s.rcu ∧ (s.establishBlind).cw =
    s.cw := by simp [State.establishBlind]

@[simp] theorem State.blindIf_keeps (s : State) (b : Bool) :
    (s.blindIf b).pending = s.pending ∧ (s.blindIf b).now = s.now ∧ (s.blindIf b).startUp = s.startUp ∧ (s.blindIf
    b).initEnd = s.initEnd ∧ (s.blindIf b).resetLow = s.resetLow ∧ (s.blindIf b).freeIndex = s.freeIndex ∧ (s.blindIf b).xm
    = s.xm ∧ (s.blindIf b).rc = s.rc ∧ (s.blindIf b).tru = s.tru ∧ (s.blindIf b).reg = s.reg ∧ (s.blindIf b).link = s.link ∧
    (s.blindIf b).tloss = s.tloss ∧ (s.blindIf b).pt = s.pt ∧ (s.blindIf b).tu = s.tu ∧ (s.blindIf b).rcu = s.rcu ∧
    (s.blindIf b).cw = s.cw := by
  unfold State.blindIf; (repeat' (split <;> try dsimp only)) <;> simp

@[simp] theorem State.abandonWalk_keeps (s : State) :
    (s.abandonWalk).pending = s.pending ∧ (s.abandonWalk).now = s.now ∧ (s.abandonWalk).startUp = s.startUp ∧
    (s.abandonWalk).initEnd = s.initEnd ∧ (s.abandonWalk).resetLow = s.resetLow ∧ (s.abandonWalk).freeIndex = s.freeIndex ∧
    (s.abandonWalk).xm = s.xm ∧ (s.abandonWalk).rc = s.rc ∧ (s.abandonWalk).tru = s.tru ∧ (s.abandonWalk).reg = s.reg ∧
    (s.abandonWalk).link = s.link ∧ (s.abandonWalk).tloss = s.tloss ∧ (s.abandonWalk).pt = s.pt ∧ (s.abandonWalk).vw = s.vw
    ∧ (s.abandonWalk).tu = s.tu ∧ (s.abandonWalk).rcu = s.rcu := by
  unfold State.abandonWalk; (repeat' (split <;> try dsimp only)) <;> simp

@[simp] theorem State.writeResult_keeps (s : State) (off : Nat) (r : OrderResult) :
    (s.writeResult off r).pending = s.pending ∧ (s.writeResult off r).now = s.now ∧ (s.writeResult off r).startUp =
    s.startUp ∧ (s.writeResult off r).initEnd = s.initEnd ∧ (s.writeResult off r).resetLow = s.resetLow ∧ (s.writeResult off
    r).freeIndex = s.freeIndex ∧ (s.writeResult off r).rc = s.rc ∧ (s.writeResult off r).tru = s.tru ∧ (s.writeResult off
    r).reg = s.reg ∧ (s.writeResult off r).link = s.link ∧ (s.writeResult off r).tloss = s.tloss ∧ (s.writeResult off r).pt
    = s.pt ∧ (s.writeResult off r).vw = s.vw ∧ (s.writeResult off r).tu = s.tu ∧ (s.writeResult off r).rcu = s.rcu ∧
    (s.writeResult off r).rn = s.rn ∧ (s.writeResult off r).cw = s.cw := by
  unfold State.writeResult; (repeat' (split <;> try dsimp only)) <;> simp

@[simp] theorem State.finishRecord_keeps (s : State) (off : Nat) (h : Header) (r : OrderResult) :
    (s.finishRecord off h r).pending = s.pending ∧ (s.finishRecord off h r).now = s.now ∧ (s.finishRecord off h r).startUp =
    s.startUp ∧ (s.finishRecord off h r).initEnd = s.initEnd ∧ (s.finishRecord off h r).resetLow = s.resetLow ∧
    (s.finishRecord off h r).freeIndex = s.freeIndex ∧ (s.finishRecord off h r).rc = s.rc ∧ (s.finishRecord off h r).tru =
    s.tru ∧ (s.finishRecord off h r).reg = s.reg ∧ (s.finishRecord off h r).link = s.link ∧ (s.finishRecord off h r).tloss =
    s.tloss ∧ (s.finishRecord off h r).pt = s.pt ∧ (s.finishRecord off h r).vw = s.vw ∧ (s.finishRecord off h r).tu = s.tu ∧
    (s.finishRecord off h r).rcu = s.rcu := by
  unfold State.finishRecord; (try dsimp only); (repeat' (split <;> try dsimp only)) <;> simp

@[simp] theorem State.evalStopHold_keeps (s : State) :
    (s.evalStopHold).pending = s.pending ∧ (s.evalStopHold).now = s.now ∧ (s.evalStopHold).startUp = s.startUp ∧
    (s.evalStopHold).initEnd = s.initEnd ∧ (s.evalStopHold).resetLow = s.resetLow ∧ (s.evalStopHold).freeIndex = s.freeIndex
    ∧ (s.evalStopHold).xm = s.xm ∧ (s.evalStopHold).tru = s.tru ∧ (s.evalStopHold).reg = s.reg ∧ (s.evalStopHold).link =
    s.link ∧ (s.evalStopHold).tloss = s.tloss ∧ (s.evalStopHold).pt = s.pt ∧ (s.evalStopHold).vw = s.vw ∧
    (s.evalStopHold).tu = s.tu ∧ (s.evalStopHold).rcu = s.rcu ∧ (s.evalStopHold).rn = s.rn ∧ (s.evalStopHold).cw = s.cw := by
  unfold State.evalStopHold; (repeat' (split <;> try dsimp only)) <;> simp

@[simp] theorem State.enterStopping_keeps (s : State) :
    (s.enterStopping).pending = s.pending ∧ (s.enterStopping).now = s.now ∧ (s.enterStopping).startUp = s.startUp ∧
    (s.enterStopping).initEnd = s.initEnd ∧ (s.enterStopping).resetLow = s.resetLow ∧ (s.enterStopping).freeIndex =
    s.freeIndex ∧ (s.enterStopping).xm = s.xm ∧ (s.enterStopping).tru = s.tru ∧ (s.enterStopping).reg = s.reg ∧
    (s.enterStopping).link = s.link ∧ (s.enterStopping).tloss = s.tloss ∧ (s.enterStopping).pt = s.pt ∧ (s.enterStopping).vw
    = s.vw ∧ (s.enterStopping).tu = s.tu ∧ (s.enterStopping).rcu = s.rcu ∧ (s.enterStopping).cw = s.cw := by simp [State.enterStopping]

@[simp] theorem State.enterRunning_keeps (s : State) :
    (s.enterRunning).pending = s.pending ∧ (s.enterRunning).now = s.now ∧ (s.enterRunning).startUp = s.startUp ∧
    (s.enterRunning).initEnd = s.initEnd ∧ (s.enterRunning).resetLow = s.resetLow ∧ (s.enterRunning).freeIndex = s.freeIndex
    ∧ (s.enterRunning).xm = s.xm ∧ (s.enterRunning).tru = s.tru ∧ (s.enterRunning).reg = s.reg ∧ (s.enterRunning).link =
    s.link ∧ (s.enterRunning).tloss = s.tloss ∧ (s.enterRunning).pt = s.pt ∧ (s.enterRunning).vw = s.vw ∧
    (s.enterRunning).tu = s.tu ∧ (s.enterRunning).rcu = s.rcu ∧ (s.enterRunning).cw = s.cw := by simp [State.enterRunning]

@[simp] theorem State.enterStopped_keeps (s : State) :
    (s.enterStopped).pending = s.pending ∧ (s.enterStopped).now = s.now ∧ (s.enterStopped).startUp = s.startUp ∧
    (s.enterStopped).initEnd = s.initEnd ∧ (s.enterStopped).resetLow = s.resetLow ∧ (s.enterStopped).freeIndex = s.freeIndex
    ∧ (s.enterStopped).xm = s.xm ∧ (s.enterStopped).link = s.link ∧ (s.enterStopped).tloss = s.tloss ∧ (s.enterStopped).pt =
    s.pt ∧ (s.enterStopped).vw = s.vw ∧ (s.enterStopped).tu = s.tu ∧ (s.enterStopped).rcu = s.rcu ∧ (s.enterStopped).cw =
    s.cw := by simp [State.enterStopped]

@[simp] theorem State.leaveTripped_keeps (s : State) :
    (s.leaveTripped).pending = s.pending ∧ (s.leaveTripped).now = s.now ∧ (s.leaveTripped).startUp = s.startUp ∧
    (s.leaveTripped).initEnd = s.initEnd ∧ (s.leaveTripped).resetLow = s.resetLow ∧ (s.leaveTripped).freeIndex = s.freeIndex
    ∧ (s.leaveTripped).xm = s.xm ∧ (s.leaveTripped).tru = s.tru ∧ (s.leaveTripped).reg = s.reg ∧ (s.leaveTripped).link =
    s.link ∧ (s.leaveTripped).tloss = s.tloss ∧ (s.leaveTripped).pt = s.pt ∧ (s.leaveTripped).vw = s.vw ∧
    (s.leaveTripped).tu = s.tu ∧ (s.leaveTripped).rcu = s.rcu ∧ (s.leaveTripped).cw = s.cw := by simp [State.leaveTripped]

@[simp] theorem State.useSpeed_keeps (s : State) :
    (s.useSpeed).pending = s.pending ∧ (s.useSpeed).now = s.now ∧ (s.useSpeed).startUp = s.startUp ∧ (s.useSpeed).initEnd =
    s.initEnd ∧ (s.useSpeed).resetLow = s.resetLow ∧ (s.useSpeed).freeIndex = s.freeIndex ∧ (s.useSpeed).xm = s.xm ∧
    (s.useSpeed).tru = s.tru ∧ (s.useSpeed).reg = s.reg ∧ (s.useSpeed).link = s.link ∧ (s.useSpeed).tloss = s.tloss ∧
    (s.useSpeed).pt = s.pt ∧ (s.useSpeed).vw = s.vw ∧ (s.useSpeed).tu = s.tu ∧ (s.useSpeed).rcu = s.rcu ∧ (s.useSpeed).cw =
    s.cw := by
  unfold State.useSpeed; (repeat' (split <;> try dsimp only)) <;> simp

@[simp] theorem State.speedWindow_keeps (s : State) :
    (s.speedWindow).pending = s.pending ∧ (s.speedWindow).startUp = s.startUp ∧ (s.speedWindow).initEnd = s.initEnd ∧
    (s.speedWindow).resetLow = s.resetLow ∧ (s.speedWindow).freeIndex = s.freeIndex ∧ (s.speedWindow).xm = s.xm ∧
    (s.speedWindow).tru = s.tru ∧ (s.speedWindow).reg = s.reg ∧ (s.speedWindow).link = s.link ∧ (s.speedWindow).tloss =
    s.tloss ∧ (s.speedWindow).vw = s.vw ∧ (s.speedWindow).tu = s.tu ∧ (s.speedWindow).rcu = s.rcu ∧ (s.speedWindow).cw =
    s.cw := by
  unfold State.speedWindow; (try dsimp only); (repeat' (split <;> try dsimp only)) <;> simp

@[simp] theorem State.breakAwayExpires_keeps (s : State) :
    (s.breakAwayExpires).pending = s.pending ∧ (s.breakAwayExpires).startUp = s.startUp ∧ (s.breakAwayExpires).initEnd =
    s.initEnd ∧ (s.breakAwayExpires).resetLow = s.resetLow ∧ (s.breakAwayExpires).freeIndex = s.freeIndex ∧
    (s.breakAwayExpires).tloss = s.tloss ∧ (s.breakAwayExpires).pt = s.pt ∧ (s.breakAwayExpires).vw = s.vw ∧
    (s.breakAwayExpires).cw = s.cw := by
  unfold State.breakAwayExpires; (try dsimp only); (repeat' (split <;> try dsimp only)) <;> simp

@[simp] theorem State.stopHoldExpires_keeps (s : State) :
    (s.stopHoldExpires).pending = s.pending ∧ (s.stopHoldExpires).startUp = s.startUp ∧ (s.stopHoldExpires).initEnd =
    s.initEnd ∧ (s.stopHoldExpires).resetLow = s.resetLow ∧ (s.stopHoldExpires).freeIndex = s.freeIndex ∧
    (s.stopHoldExpires).xm = s.xm ∧ (s.stopHoldExpires).link = s.link ∧ (s.stopHoldExpires).tloss = s.tloss ∧
    (s.stopHoldExpires).pt = s.pt ∧ (s.stopHoldExpires).vw = s.vw ∧ (s.stopHoldExpires).tu = s.tu ∧ (s.stopHoldExpires).rcu
    = s.rcu ∧ (s.stopHoldExpires).cw = s.cw := by
  unfold State.stopHoldExpires; (try dsimp only); (repeat' (split <;> try dsimp only)) <;> simp

@[simp] theorem State.completePublication_keeps (s : State) :
    (s.completePublication).pending = s.pending ∧ (s.completePublication).now = s.now ∧ (s.completePublication).startUp =
    s.startUp ∧ (s.completePublication).initEnd = s.initEnd ∧ (s.completePublication).resetLow = s.resetLow ∧
    (s.completePublication).freeIndex = s.freeIndex ∧ (s.completePublication).rc = s.rc ∧ (s.completePublication).tru =
    s.tru ∧ (s.completePublication).reg = s.reg ∧ (s.completePublication).link = s.link ∧ (s.completePublication).tloss =
    s.tloss ∧ (s.completePublication).vw = s.vw ∧ (s.completePublication).tu = s.tu ∧ (s.completePublication).rcu = s.rcu ∧
    (s.completePublication).cw = s.cw := by
  unfold State.completePublication; (try dsimp only); (repeat' (split <;> try dsimp only)) <;> simp

@[simp] theorem State.foldGroup_keeps (s : State) (g : Chan) (m : List Nat) :
    (s.foldGroup g m).pending = s.pending ∧ (s.foldGroup g m).now = s.now ∧ (s.foldGroup g m).startUp = s.startUp ∧
    (s.foldGroup g m).initEnd = s.initEnd ∧ (s.foldGroup g m).resetLow = s.resetLow ∧ (s.foldGroup g m).freeIndex =
    s.freeIndex ∧ (s.foldGroup g m).xm = s.xm ∧ (s.foldGroup g m).rc = s.rc ∧ (s.foldGroup g m).tru = s.tru ∧ (s.foldGroup g
    m).reg = s.reg ∧ (s.foldGroup g m).link = s.link ∧ (s.foldGroup g m).tloss = s.tloss ∧ (s.foldGroup g m).vw = s.vw ∧
    (s.foldGroup g m).tu = s.tu ∧ (s.foldGroup g m).rcu = s.rcu ∧ (s.foldGroup g m).rn = s.rn ∧ (s.foldGroup g m).cw = s.cw := by
  unfold State.foldGroup; (repeat' (split <;> try dsimp only)) <;> simp

@[simp] theorem State.completionTest_keeps (s : State) :
    (s.completionTest).pending = s.pending ∧ (s.completionTest).now = s.now ∧ (s.completionTest).startUp = s.startUp ∧
    (s.completionTest).initEnd = s.initEnd ∧ (s.completionTest).resetLow = s.resetLow ∧ (s.completionTest).freeIndex =
    s.freeIndex ∧ (s.completionTest).xm = s.xm ∧ (s.completionTest).rc = s.rc ∧ (s.completionTest).tru = s.tru ∧
    (s.completionTest).reg = s.reg ∧ (s.completionTest).link = s.link ∧ (s.completionTest).tloss = s.tloss ∧
    (s.completionTest).pt = s.pt ∧ (s.completionTest).tu = s.tu ∧ (s.completionTest).rcu = s.rcu ∧ (s.completionTest).rn =
    s.rn ∧ (s.completionTest).cw = s.cw := by unfold State.completionTest; simp only []; split <;> simp

@[simp] theorem State.faultEffects_keeps (s : State) (l : List (Fin 8)) :
    (s.faultEffects l).pending = s.pending ∧ (s.faultEffects l).now = s.now ∧ (s.faultEffects l).startUp = s.startUp ∧
    (s.faultEffects l).initEnd = s.initEnd ∧ (s.faultEffects l).resetLow = s.resetLow ∧ (s.faultEffects l).freeIndex =
    s.freeIndex ∧ (s.faultEffects l).xm = s.xm ∧ (s.faultEffects l).rc = s.rc ∧ (s.faultEffects l).tru = s.tru ∧
    (s.faultEffects l).reg = s.reg ∧ (s.faultEffects l).link = s.link ∧ (s.faultEffects l).tloss = s.tloss ∧ (s.faultEffects
    l).pt = s.pt ∧ (s.faultEffects l).tu = s.tu ∧ (s.faultEffects l).rcu = s.rcu ∧ (s.faultEffects l).cw = s.cw := by
  unfold State.faultEffects; (repeat' (split <;> try dsimp only)) <;> simp

@[simp] theorem State.takeFrame_keeps (s : State) (f : SampleFrame) :
    (s.takeFrame f).pending = s.pending ∧ (s.takeFrame f).now = s.now ∧ (s.takeFrame f).startUp = s.startUp ∧ (s.takeFrame
    f).initEnd = s.initEnd ∧ (s.takeFrame f).resetLow = s.resetLow ∧ (s.takeFrame f).freeIndex = s.freeIndex ∧ (s.takeFrame
    f).xm = s.xm ∧ (s.takeFrame f).rc = s.rc ∧ (s.takeFrame f).tru = s.tru ∧ (s.takeFrame f).reg = s.reg ∧ (s.takeFrame
    f).link = s.link ∧ (s.takeFrame f).tloss = s.tloss ∧ (s.takeFrame f).tu = s.tu ∧ (s.takeFrame f).rcu = s.rcu ∧
    (s.takeFrame f).cw = s.cw := by simp [State.takeFrame]

/-- Taking no waiting frame empties the FIFO (R103). -/
theorem State.drain_nil (s : State) : s.drain [] = { s with vw := { s.vw with fifo := [] } } := rfl

/-- Taking the oldest waiting frame, and then the rest until one begins an evaluation (R103). -/
theorem State.drain_cons (s : State) (f : SampleFrame) (fs : List SampleFrame) :
    s.drain (f :: fs) =
      if (State.takeFrame { s with vw := { s.vw with fifo := fs } } f).vw.evaluation.isSome then
        State.takeFrame { s with vw := { s.vw with fifo := fs } } f
      else (State.takeFrame { s with vw := { s.vw with fifo := fs } } f).drain fs := rfl

@[simp] theorem State.drain_keeps (s : State) (fs : List SampleFrame) :
    (s.drain fs).pending = s.pending ∧ (s.drain fs).now = s.now ∧ (s.drain fs).startUp = s.startUp ∧ (s.drain fs).initEnd =
    s.initEnd ∧ (s.drain fs).resetLow = s.resetLow ∧ (s.drain fs).freeIndex = s.freeIndex ∧ (s.drain fs).xm = s.xm ∧
    (s.drain fs).rc = s.rc ∧ (s.drain fs).tru = s.tru ∧ (s.drain fs).reg = s.reg ∧ (s.drain fs).link = s.link ∧ (s.drain
    fs).tloss = s.tloss ∧ (s.drain fs).tu = s.tu ∧ (s.drain fs).rcu = s.rcu ∧ (s.drain fs).cw = s.cw := by
  induction fs generalizing s with
  | nil => rw [State.drain_nil]; and_intros <;> rfl
  | cons f fs ih =>
    have h := ih (State.takeFrame { s with vw := { s.vw with fifo := fs } } f)
    rw [State.drain_cons]
    split
    · simp
    · simpa using h

@[simp] theorem State.admitFrame_keeps (s : State) (f : SampleFrame) :
    (s.admitFrame f).pending = s.pending ∧ (s.admitFrame f).now = s.now ∧ (s.admitFrame f).startUp = s.startUp ∧
    (s.admitFrame f).initEnd = s.initEnd ∧ (s.admitFrame f).resetLow = s.resetLow ∧ (s.admitFrame f).freeIndex = s.freeIndex
    ∧ (s.admitFrame f).xm = s.xm ∧ (s.admitFrame f).rc = s.rc ∧ (s.admitFrame f).tru = s.tru ∧ (s.admitFrame f).reg = s.reg
    ∧ (s.admitFrame f).link = s.link ∧ (s.admitFrame f).tloss = s.tloss ∧ (s.admitFrame f).tu = s.tu ∧ (s.admitFrame f).rcu
    = s.rcu ∧ (s.admitFrame f).cw = s.cw := by
  unfold State.admitFrame; (repeat' (split <;> try dsimp only)) <;> simp

@[simp] theorem State.judgeBlock_keeps (s : State) (l : Latched) :
    (s.judgeBlock l).pending = s.pending ∧ (s.judgeBlock l).now = s.now ∧ (s.judgeBlock l).startUp = s.startUp ∧
    (s.judgeBlock l).initEnd = s.initEnd ∧ (s.judgeBlock l).resetLow = s.resetLow ∧ (s.judgeBlock l).freeIndex = s.freeIndex
    ∧ (s.judgeBlock l).xm = s.xm ∧ (s.judgeBlock l).rc = s.rc ∧ (s.judgeBlock l).tru = s.tru ∧ (s.judgeBlock l).reg = s.reg
    ∧ (s.judgeBlock l).link = s.link ∧ (s.judgeBlock l).tloss = s.tloss ∧ (s.judgeBlock l).pt = s.pt ∧ (s.judgeBlock l).tu =
    s.tu ∧ (s.judgeBlock l).rcu = s.rcu ∧ (s.judgeBlock l).cw = s.cw := by
  unfold State.judgeBlock; (try dsimp only); (repeat' (split <;> try dsimp only)) <;> simp

@[simp] theorem State.judgeAll_keeps (s : State) (ls : List Latched) :
    (s.judgeAll ls).pending = s.pending ∧ (s.judgeAll ls).now = s.now ∧ (s.judgeAll ls).startUp = s.startUp ∧ (s.judgeAll
    ls).initEnd = s.initEnd ∧ (s.judgeAll ls).resetLow = s.resetLow ∧ (s.judgeAll ls).freeIndex = s.freeIndex ∧ (s.judgeAll
    ls).xm = s.xm ∧ (s.judgeAll ls).rc = s.rc ∧ (s.judgeAll ls).tru = s.tru ∧ (s.judgeAll ls).reg = s.reg ∧ (s.judgeAll
    ls).link = s.link ∧ (s.judgeAll ls).tloss = s.tloss ∧ (s.judgeAll ls).pt = s.pt ∧ (s.judgeAll ls).tu = s.tu ∧
    (s.judgeAll ls).rcu = s.rcu ∧ (s.judgeAll ls).cw = s.cw := by
  unfold State.judgeAll
  induction ls generalizing s with
  | nil => simp
  | cons l ls ih => simpa using ih (s.judgeBlock l)

@[simp] theorem State.moveAlertTime_keeps (s : State) :
    (s.moveAlertTime).pending = s.pending ∧ (s.moveAlertTime).now = s.now ∧ (s.moveAlertTime).startUp = s.startUp ∧
    (s.moveAlertTime).initEnd = s.initEnd ∧ (s.moveAlertTime).resetLow = s.resetLow ∧ (s.moveAlertTime).freeIndex =
    s.freeIndex ∧ (s.moveAlertTime).xm = s.xm ∧ (s.moveAlertTime).rc = s.rc ∧ (s.moveAlertTime).tru = s.tru ∧
    (s.moveAlertTime).reg = s.reg ∧ (s.moveAlertTime).link = s.link ∧ (s.moveAlertTime).tloss = s.tloss ∧
    (s.moveAlertTime).pt = s.pt ∧ (s.moveAlertTime).tu = s.tu ∧ (s.moveAlertTime).rcu = s.rcu ∧ (s.moveAlertTime).cw = s.cw := by
  unfold State.moveAlertTime; (try dsimp only); (repeat' (split <;> try dsimp only)) <;> simp

@[simp] theorem State.moveQuietTime_keeps (s : State) :
    (s.moveQuietTime).pending = s.pending ∧ (s.moveQuietTime).now = s.now ∧ (s.moveQuietTime).startUp = s.startUp ∧
    (s.moveQuietTime).initEnd = s.initEnd ∧ (s.moveQuietTime).resetLow = s.resetLow ∧ (s.moveQuietTime).freeIndex =
    s.freeIndex ∧ (s.moveQuietTime).xm = s.xm ∧ (s.moveQuietTime).rc = s.rc ∧ (s.moveQuietTime).tru = s.tru ∧
    (s.moveQuietTime).reg = s.reg ∧ (s.moveQuietTime).link = s.link ∧ (s.moveQuietTime).tloss = s.tloss ∧
    (s.moveQuietTime).pt = s.pt ∧ (s.moveQuietTime).tu = s.tu ∧ (s.moveQuietTime).rcu = s.rcu ∧ (s.moveQuietTime).cw = s.cw := by
  unfold State.moveQuietTime; (try dsimp only); (repeat' (split <;> try dsimp only)) <;> simp

@[simp] theorem State.reportDangers_keeps (s : State) (l : List (Fin 8)) :
    (s.reportDangers l).pending = s.pending ∧ (s.reportDangers l).now = s.now ∧ (s.reportDangers l).startUp = s.startUp ∧
    (s.reportDangers l).initEnd = s.initEnd ∧ (s.reportDangers l).resetLow = s.resetLow ∧ (s.reportDangers l).freeIndex =
    s.freeIndex ∧ (s.reportDangers l).tloss = s.tloss ∧ (s.reportDangers l).pt = s.pt ∧ (s.reportDangers l).vw = s.vw ∧
    (s.reportDangers l).cw = s.cw := by
  unfold State.reportDangers
  induction l generalizing s with
  | nil => simp
  | cons i l ih => simpa using ih (s.report (.vibrationDanger i))

@[simp] theorem State.evaluationEnds_keeps (s : State) :
    (s.evaluationEnds).pending = s.pending ∧ (s.evaluationEnds).startUp = s.startUp ∧ (s.evaluationEnds).initEnd = s.initEnd
    ∧ (s.evaluationEnds).resetLow = s.resetLow ∧ (s.evaluationEnds).freeIndex = s.freeIndex ∧ (s.evaluationEnds).tloss =
    s.tloss ∧ (s.evaluationEnds).cw = s.cw := by
  unfold State.evaluationEnds; (try dsimp only); (repeat' (split <;> try dsimp only)) <;> simp

@[simp] theorem State.portLost_keeps (s : State) :
    (s.portLost).pending = s.pending ∧ (s.portLost).now = s.now ∧ (s.portLost).startUp = s.startUp ∧ (s.portLost).initEnd =
    s.initEnd ∧ (s.portLost).resetLow = s.resetLow ∧ (s.portLost).freeIndex = s.freeIndex ∧ (s.portLost).xm = s.xm ∧
    (s.portLost).rc = s.rc ∧ (s.portLost).tru = s.tru ∧ (s.portLost).reg = s.reg ∧ (s.portLost).link = s.link ∧
    (s.portLost).tloss = s.tloss ∧ (s.portLost).pt = s.pt ∧ (s.portLost).tu = s.tu ∧ (s.portLost).rcu = s.rcu ∧
    (s.portLost).cw = s.cw := by simp [State.portLost]

@[simp] theorem State.discardSample_keeps (s : State) (b : Bool) :
    (s.discardSample b).pending = s.pending ∧ (s.discardSample b).now = s.now ∧ (s.discardSample b).startUp = s.startUp ∧
    (s.discardSample b).initEnd = s.initEnd ∧ (s.discardSample b).resetLow = s.resetLow ∧ (s.discardSample b).freeIndex =
    s.freeIndex ∧ (s.discardSample b).xm = s.xm ∧ (s.discardSample b).rc = s.rc ∧ (s.discardSample b).tru = s.tru ∧
    (s.discardSample b).reg = s.reg ∧ (s.discardSample b).link = s.link ∧ (s.discardSample b).tloss = s.tloss ∧
    (s.discardSample b).pt = s.pt ∧ (s.discardSample b).tu = s.tu ∧ (s.discardSample b).rcu = s.rcu ∧ (s.discardSample b).rn
    = s.rn ∧ (s.discardSample b).cw = s.cw := by simp [State.discardSample]

@[simp] theorem State.acceptSample_keeps (s : State) (bytes : List Byte) :
    (s.acceptSample bytes).pending = s.pending ∧ (s.acceptSample bytes).now = s.now ∧ (s.acceptSample bytes).startUp =
    s.startUp ∧ (s.acceptSample bytes).initEnd = s.initEnd ∧ (s.acceptSample bytes).resetLow = s.resetLow ∧ (s.acceptSample
    bytes).freeIndex = s.freeIndex ∧ (s.acceptSample bytes).xm = s.xm ∧ (s.acceptSample bytes).rc = s.rc ∧ (s.acceptSample
    bytes).tru = s.tru ∧ (s.acceptSample bytes).reg = s.reg ∧ (s.acceptSample bytes).link = s.link ∧ (s.acceptSample
    bytes).tloss = s.tloss ∧ (s.acceptSample bytes).tu = s.tu ∧ (s.acceptSample bytes).rcu = s.rcu ∧ (s.acceptSample
    bytes).cw = s.cw := by simp [State.acceptSample]

@[simp] theorem State.sampleFrame_keeps (s : State) (f : List RxByte) :
    (s.sampleFrame f).pending = s.pending ∧ (s.sampleFrame f).now = s.now ∧ (s.sampleFrame f).startUp = s.startUp ∧
    (s.sampleFrame f).initEnd = s.initEnd ∧ (s.sampleFrame f).resetLow = s.resetLow ∧ (s.sampleFrame f).freeIndex =
    s.freeIndex ∧ (s.sampleFrame f).xm = s.xm ∧ (s.sampleFrame f).rc = s.rc ∧ (s.sampleFrame f).tru = s.tru ∧ (s.sampleFrame
    f).reg = s.reg ∧ (s.sampleFrame f).link = s.link ∧ (s.sampleFrame f).tloss = s.tloss ∧ (s.sampleFrame f).tu = s.tu ∧
    (s.sampleFrame f).rcu = s.rcu ∧ (s.sampleFrame f).cw = s.cw := by
  unfold State.sampleFrame; (repeat' (split <;> try dsimp only)) <;> simp

@[simp] theorem State.portLossExpires_keeps (s : State) :
    (s.portLossExpires).pending = s.pending ∧ (s.portLossExpires).startUp = s.startUp ∧ (s.portLossExpires).initEnd =
    s.initEnd ∧ (s.portLossExpires).resetLow = s.resetLow ∧ (s.portLossExpires).freeIndex = s.freeIndex ∧
    (s.portLossExpires).xm = s.xm ∧ (s.portLossExpires).rc = s.rc ∧ (s.portLossExpires).tru = s.tru ∧
    (s.portLossExpires).reg = s.reg ∧ (s.portLossExpires).link = s.link ∧ (s.portLossExpires).tloss = s.tloss ∧
    (s.portLossExpires).pt = s.pt ∧ (s.portLossExpires).tu = s.tu ∧ (s.portLossExpires).rcu = s.rcu ∧ (s.portLossExpires).cw
    = s.cw := by
  unfold State.portLossExpires; (try dsimp only); (repeat' (split <;> try dsimp only)) <;> simp

@[simp] theorem State.arrival_keeps (s : State) (ch : Chan) (i : Int) :
    (s.arrival ch i).pending = s.pending ∧ (s.arrival ch i).now = s.now ∧ (s.arrival ch i).startUp = s.startUp ∧ (s.arrival
    ch i).initEnd = s.initEnd ∧ (s.arrival ch i).resetLow = s.resetLow ∧ (s.arrival ch i).freeIndex = s.freeIndex ∧
    (s.arrival ch i).tloss = s.tloss ∧ (s.arrival ch i).pt = s.pt ∧ (s.arrival ch i).vw = s.vw ∧ (s.arrival ch i).cw = s.cw := by simp [State.arrival]

@[simp] theorem State.acceptMeasure_keeps (s : State) (ch : Chan) (f : MeasureFrame) :
    (s.acceptMeasure ch f).pending = s.pending ∧ (s.acceptMeasure ch f).now = s.now ∧ (s.acceptMeasure ch f).startUp =
    s.startUp ∧ (s.acceptMeasure ch f).initEnd = s.initEnd ∧ (s.acceptMeasure ch f).resetLow = s.resetLow ∧ (s.acceptMeasure
    ch f).freeIndex = s.freeIndex ∧ (s.acceptMeasure ch f).tloss = s.tloss ∧ (s.acceptMeasure ch f).pt = s.pt ∧
    (s.acceptMeasure ch f).vw = s.vw ∧ (s.acceptMeasure ch f).cw = s.cw := by simp [State.acceptMeasure]

@[simp] theorem State.linkFrame_keeps (s : State) (ch : Chan) (f : List RxByte) :
    (s.linkFrame ch f).pending = s.pending ∧ (s.linkFrame ch f).now = s.now ∧ (s.linkFrame ch f).startUp = s.startUp ∧
    (s.linkFrame ch f).initEnd = s.initEnd ∧ (s.linkFrame ch f).resetLow = s.resetLow ∧ (s.linkFrame ch f).freeIndex =
    s.freeIndex ∧ (s.linkFrame ch f).tloss = s.tloss ∧ (s.linkFrame ch f).pt = s.pt ∧ (s.linkFrame ch f).vw = s.vw ∧
    (s.linkFrame ch f).cw = s.cw := by
  unfold State.linkFrame; (repeat' (split <;> try dsimp only)) <;> simp

@[simp] theorem State.synchronise_keeps (s : State) (r : Receiver) :
    (s.synchronise r).pending = s.pending ∧ (s.synchronise r).now = s.now ∧ (s.synchronise r).startUp = s.startUp ∧
    (s.synchronise r).initEnd = s.initEnd ∧ (s.synchronise r).resetLow = s.resetLow ∧ (s.synchronise r).freeIndex =
    s.freeIndex ∧ (s.synchronise r).xm = s.xm ∧ (s.synchronise r).rc = s.rc ∧ (s.synchronise r).tru = s.tru ∧ (s.synchronise
    r).reg = s.reg ∧ (s.synchronise r).tloss = s.tloss ∧ (s.synchronise r).pt = s.pt ∧ (s.synchronise r).tu = s.tu ∧
    (s.synchronise r).rcu = s.rcu ∧ (s.synchronise r).rn = s.rn ∧ (s.synchronise r).cw = s.cw := by
  unfold State.synchronise; (repeat' (split <;> try dsimp only)) <;> simp

@[simp] theorem State.breakDetected_keeps (s : State) (ch : Chan) :
    (s.breakDetected ch).pending = s.pending ∧ (s.breakDetected ch).now = s.now ∧ (s.breakDetected ch).startUp = s.startUp ∧
    (s.breakDetected ch).initEnd = s.initEnd ∧ (s.breakDetected ch).resetLow = s.resetLow ∧ (s.breakDetected ch).freeIndex =
    s.freeIndex ∧ (s.breakDetected ch).tloss = s.tloss ∧ (s.breakDetected ch).pt = s.pt ∧ (s.breakDetected ch).vw = s.vw ∧
    (s.breakDetected ch).cw = s.cw := by
  unfold State.breakDetected; (repeat' (split <;> try dsimp only)) <;> simp

@[simp] theorem State.breakCleared_keeps (s : State) (ch : Chan) :
    (s.breakCleared ch).pending = s.pending ∧ (s.breakCleared ch).now = s.now ∧ (s.breakCleared ch).startUp = s.startUp ∧
    (s.breakCleared ch).initEnd = s.initEnd ∧ (s.breakCleared ch).resetLow = s.resetLow ∧ (s.breakCleared ch).freeIndex =
    s.freeIndex ∧ (s.breakCleared ch).xm = s.xm ∧ (s.breakCleared ch).rc = s.rc ∧ (s.breakCleared ch).tru = s.tru ∧
    (s.breakCleared ch).reg = s.reg ∧ (s.breakCleared ch).tloss = s.tloss ∧ (s.breakCleared ch).pt = s.pt ∧ (s.breakCleared
    ch).vw = s.vw ∧ (s.breakCleared ch).tu = s.tu ∧ (s.breakCleared ch).rcu = s.rcu ∧ (s.breakCleared ch).rn = s.rn ∧
    (s.breakCleared ch).cw = s.cw := by simp [State.breakCleared]

@[simp] theorem State.linkLossExpires_keeps (s : State) (ch : Chan) :
    (s.linkLossExpires ch).pending = s.pending ∧ (s.linkLossExpires ch).startUp = s.startUp ∧ (s.linkLossExpires ch).initEnd
    = s.initEnd ∧ (s.linkLossExpires ch).resetLow = s.resetLow ∧ (s.linkLossExpires ch).freeIndex = s.freeIndex ∧
    (s.linkLossExpires ch).tloss = s.tloss ∧ (s.linkLossExpires ch).pt = s.pt ∧ (s.linkLossExpires ch).vw = s.vw ∧
    (s.linkLossExpires ch).cw = s.cw := by
  unfold State.linkLossExpires; (try dsimp only); (repeat' (split <;> try dsimp only)) <;> simp

@[simp] theorem State.transmitCompletes_keeps (s : State) (ch : Chan) :
    (s.transmitCompletes ch).pending = s.pending ∧ (s.transmitCompletes ch).startUp = s.startUp ∧ (s.transmitCompletes
    ch).initEnd = s.initEnd ∧ (s.transmitCompletes ch).resetLow = s.resetLow ∧ (s.transmitCompletes ch).freeIndex =
    s.freeIndex ∧ (s.transmitCompletes ch).xm = s.xm ∧ (s.transmitCompletes ch).rc = s.rc ∧ (s.transmitCompletes ch).tru =
    s.tru ∧ (s.transmitCompletes ch).reg = s.reg ∧ (s.transmitCompletes ch).tloss = s.tloss ∧ (s.transmitCompletes ch).pt =
    s.pt ∧ (s.transmitCompletes ch).vw = s.vw ∧ (s.transmitCompletes ch).tu = s.tu ∧ (s.transmitCompletes ch).rcu = s.rcu ∧
    (s.transmitCompletes ch).rn = s.rn ∧ (s.transmitCompletes ch).cw = s.cw := by
  unfold State.transmitCompletes; (try dsimp only); (repeat' (split <;> try dsimp only)) <;> simp

@[simp] theorem State.completeCopy_keeps (s : State) :
    (s.completeCopy).pending = s.pending ∧ (s.completeCopy).now = s.now ∧ (s.completeCopy).startUp = s.startUp ∧
    (s.completeCopy).initEnd = s.initEnd ∧ (s.completeCopy).resetLow = s.resetLow ∧ (s.completeCopy).freeIndex = s.freeIndex
    ∧ (s.completeCopy).rc = s.rc ∧ (s.completeCopy).tru = s.tru ∧ (s.completeCopy).reg = s.reg ∧ (s.completeCopy).link =
    s.link ∧ (s.completeCopy).tloss = s.tloss ∧ (s.completeCopy).pt = s.pt ∧ (s.completeCopy).vw = s.vw ∧
    (s.completeCopy).tu = s.tu ∧ (s.completeCopy).rn = s.rn ∧ (s.completeCopy).cw = s.cw := by
  unfold State.completeCopy; (try dsimp only); (repeat' (split <;> try dsimp only)) <;> simp

@[simp] theorem State.placeSnapshot_keeps (s : State) (x : Snapshot) :
    (s.placeSnapshot x).pending = s.pending ∧ (s.placeSnapshot x).now = s.now ∧ (s.placeSnapshot x).startUp = s.startUp ∧
    (s.placeSnapshot x).initEnd = s.initEnd ∧ (s.placeSnapshot x).resetLow = s.resetLow ∧ (s.placeSnapshot x).freeIndex =
    s.freeIndex ∧ (s.placeSnapshot x).xm = s.xm ∧ (s.placeSnapshot x).rc = s.rc ∧ (s.placeSnapshot x).tru = s.tru ∧
    (s.placeSnapshot x).reg = s.reg ∧ (s.placeSnapshot x).link = s.link ∧ (s.placeSnapshot x).tloss = s.tloss ∧
    (s.placeSnapshot x).pt = s.pt ∧ (s.placeSnapshot x).vw = s.vw ∧ (s.placeSnapshot x).tu = s.tu ∧ (s.placeSnapshot x).rn =
    s.rn ∧ (s.placeSnapshot x).cw = s.cw := by simp [State.placeSnapshot]

@[simp] theorem State.appendSnapshot_keeps (s : State) (x : Snapshot) :
    (s.appendSnapshot x).pending = s.pending ∧ (s.appendSnapshot x).now = s.now ∧ (s.appendSnapshot x).startUp = s.startUp ∧
    (s.appendSnapshot x).initEnd = s.initEnd ∧ (s.appendSnapshot x).resetLow = s.resetLow ∧ (s.appendSnapshot x).freeIndex =
    s.freeIndex ∧ (s.appendSnapshot x).rc = s.rc ∧ (s.appendSnapshot x).tru = s.tru ∧ (s.appendSnapshot x).reg = s.reg ∧
    (s.appendSnapshot x).link = s.link ∧ (s.appendSnapshot x).tloss = s.tloss ∧ (s.appendSnapshot x).pt = s.pt ∧
    (s.appendSnapshot x).vw = s.vw ∧ (s.appendSnapshot x).tu = s.tu ∧ (s.appendSnapshot x).rn = s.rn ∧ (s.appendSnapshot
    x).cw = s.cw := by
  unfold State.appendSnapshot; (try dsimp only); (repeat' (split <;> try dsimp only)) <;> simp

@[simp] theorem State.completeRecord_keeps (s : State) :
    (s.completeRecord).pending = s.pending ∧ (s.completeRecord).now = s.now ∧ (s.completeRecord).startUp = s.startUp ∧
    (s.completeRecord).initEnd = s.initEnd ∧ (s.completeRecord).resetLow = s.resetLow ∧ (s.completeRecord).freeIndex =
    s.freeIndex ∧ (s.completeRecord).rc = s.rc ∧ (s.completeRecord).tru = s.tru ∧ (s.completeRecord).reg = s.reg ∧
    (s.completeRecord).link = s.link ∧ (s.completeRecord).tloss = s.tloss ∧ (s.completeRecord).pt = s.pt ∧
    (s.completeRecord).vw = s.vw ∧ (s.completeRecord).tu = s.tu ∧ (s.completeRecord).cw = s.cw := by
  unfold State.completeRecord; (try dsimp only); (repeat' (split <;> try dsimp only)) <;> simp

@[simp] theorem State.closeEntry_keeps (s : State) :
    (s.closeEntry).pending = s.pending ∧ (s.closeEntry).now = s.now ∧ (s.closeEntry).startUp = s.startUp ∧
    (s.closeEntry).initEnd = s.initEnd ∧ (s.closeEntry).resetLow = s.resetLow ∧ (s.closeEntry).freeIndex = s.freeIndex ∧
    (s.closeEntry).rc = s.rc ∧ (s.closeEntry).tru = s.tru ∧ (s.closeEntry).reg = s.reg ∧ (s.closeEntry).link = s.link ∧
    (s.closeEntry).tloss = s.tloss ∧ (s.closeEntry).pt = s.pt ∧ (s.closeEntry).vw = s.vw ∧ (s.closeEntry).tu = s.tu ∧
    (s.closeEntry).rcu = s.rcu ∧ (s.closeEntry).rn = s.rn ∧ (s.closeEntry).cw = s.cw := by
  unfold State.closeEntry; (try dsimp only); (repeat' (split <;> try dsimp only)) <;> simp

@[simp] theorem State.closeWindow_keeps (s : State) :
    (s.closeWindow).pending = s.pending ∧ (s.closeWindow).now = s.now ∧ (s.closeWindow).startUp = s.startUp ∧
    (s.closeWindow).initEnd = s.initEnd ∧ (s.closeWindow).resetLow = s.resetLow ∧ (s.closeWindow).freeIndex = s.freeIndex ∧
    (s.closeWindow).rc = s.rc ∧ (s.closeWindow).tru = s.tru ∧ (s.closeWindow).reg = s.reg ∧ (s.closeWindow).link = s.link ∧
    (s.closeWindow).tloss = s.tloss ∧ (s.closeWindow).pt = s.pt ∧ (s.closeWindow).vw = s.vw ∧ (s.closeWindow).cw = s.cw := by simp [State.closeWindow]

@[simp] theorem State.countWindow_keeps (s : State) :
    (s.countWindow).pending = s.pending ∧ (s.countWindow).now = s.now ∧ (s.countWindow).startUp = s.startUp ∧
    (s.countWindow).initEnd = s.initEnd ∧ (s.countWindow).resetLow = s.resetLow ∧ (s.countWindow).freeIndex = s.freeIndex ∧
    (s.countWindow).rc = s.rc ∧ (s.countWindow).tru = s.tru ∧ (s.countWindow).reg = s.reg ∧ (s.countWindow).link = s.link ∧
    (s.countWindow).tloss = s.tloss ∧ (s.countWindow).pt = s.pt ∧ (s.countWindow).vw = s.vw ∧ (s.countWindow).cw = s.cw := by
  unfold State.countWindow; (try dsimp only); (repeat' (split <;> try dsimp only)) <;> simp

@[simp] theorem State.handOff_keeps (s : State) :
    (s.handOff).pending = s.pending ∧ (s.handOff).now = s.now ∧ (s.handOff).startUp = s.startUp ∧ (s.handOff).initEnd =
    s.initEnd ∧ (s.handOff).resetLow = s.resetLow ∧ (s.handOff).freeIndex = s.freeIndex ∧ (s.handOff).rc = s.rc ∧
    (s.handOff).reg = s.reg ∧ (s.handOff).link = s.link ∧ (s.handOff).tloss = s.tloss ∧ (s.handOff).pt = s.pt ∧
    (s.handOff).vw = s.vw ∧ (s.handOff).cw = s.cw := by simp [State.handOff]

@[simp] theorem State.readDemand_keeps (s : State) :
    (s.readDemand).pending = s.pending ∧ (s.readDemand).now = s.now ∧ (s.readDemand).startUp = s.startUp ∧
    (s.readDemand).initEnd = s.initEnd ∧ (s.readDemand).resetLow = s.resetLow ∧ (s.readDemand).freeIndex = s.freeIndex ∧
    (s.readDemand).xm = s.xm ∧ (s.readDemand).rc = s.rc ∧ (s.readDemand).reg = s.reg ∧ (s.readDemand).link = s.link ∧
    (s.readDemand).tloss = s.tloss ∧ (s.readDemand).pt = s.pt ∧ (s.readDemand).vw = s.vw ∧ (s.readDemand).tu = s.tu ∧
    (s.readDemand).rcu = s.rcu ∧ (s.readDemand).cw = s.cw := by simp [State.readDemand]

@[simp] theorem State.computeTorque_keeps (s : State) :
    (s.computeTorque).pending = s.pending ∧ (s.computeTorque).now = s.now ∧ (s.computeTorque).startUp = s.startUp ∧
    (s.computeTorque).initEnd = s.initEnd ∧ (s.computeTorque).resetLow = s.resetLow ∧ (s.computeTorque).freeIndex =
    s.freeIndex ∧ (s.computeTorque).xm = s.xm ∧ (s.computeTorque).rc = s.rc ∧ (s.computeTorque).reg = s.reg ∧
    (s.computeTorque).link = s.link ∧ (s.computeTorque).tloss = s.tloss ∧ (s.computeTorque).pt = s.pt ∧ (s.computeTorque).vw
    = s.vw ∧ (s.computeTorque).tu = s.tu ∧ (s.computeTorque).rcu = s.rcu ∧ (s.computeTorque).rn = s.rn ∧
    (s.computeTorque).cw = s.cw := by simp [State.computeTorque]

@[simp] theorem State.countWatches_keeps (s : State) :
    (s.countWatches).pending = s.pending ∧ (s.countWatches).now = s.now ∧ (s.countWatches).startUp = s.startUp ∧
    (s.countWatches).initEnd = s.initEnd ∧ (s.countWatches).resetLow = s.resetLow ∧ (s.countWatches).freeIndex = s.freeIndex
    ∧ (s.countWatches).xm = s.xm ∧ (s.countWatches).rc = s.rc ∧ (s.countWatches).reg = s.reg ∧ (s.countWatches).link =
    s.link ∧ (s.countWatches).tloss = s.tloss ∧ (s.countWatches).pt = s.pt ∧ (s.countWatches).vw = s.vw ∧
    (s.countWatches).tu = s.tu ∧ (s.countWatches).rcu = s.rcu ∧ (s.countWatches).rn = s.rn ∧ (s.countWatches).cw = s.cw := by
  unfold State.countWatches; (repeat' (split <;> try dsimp only)) <;> simp

@[simp] theorem State.sectorFold_keeps (s : State) :
    (s.sectorFold).pending = s.pending ∧ (s.sectorFold).now = s.now ∧ (s.sectorFold).startUp = s.startUp ∧
    (s.sectorFold).initEnd = s.initEnd ∧ (s.sectorFold).resetLow = s.resetLow ∧ (s.sectorFold).freeIndex = s.freeIndex ∧
    (s.sectorFold).xm = s.xm ∧ (s.sectorFold).rc = s.rc ∧ (s.sectorFold).tru = s.tru ∧ (s.sectorFold).reg = s.reg ∧
    (s.sectorFold).link = s.link ∧ (s.sectorFold).tloss = s.tloss ∧ (s.sectorFold).vw = s.vw ∧ (s.sectorFold).tu = s.tu ∧
    (s.sectorFold).rcu = s.rcu ∧ (s.sectorFold).rn = s.rn ∧ (s.sectorFold).cw = s.cw := by
  unfold State.sectorFold; (repeat' (split <;> try dsimp only)) <;> simp

@[simp] theorem State.compute_keeps (s : State) :
    (s.compute).pending = s.pending ∧ (s.compute).now = s.now ∧ (s.compute).startUp = s.startUp ∧ (s.compute).initEnd =
    s.initEnd ∧ (s.compute).resetLow = s.resetLow ∧ (s.compute).freeIndex = s.freeIndex ∧ (s.compute).tloss = s.tloss ∧
    (s.compute).vw = s.vw ∧ (s.compute).cw = s.cw := by simp [State.compute]

@[simp] theorem State.truExpires_keeps (s : State) :
    (s.truExpires).pending = s.pending ∧ (s.truExpires).startUp = s.startUp ∧ (s.truExpires).initEnd = s.initEnd ∧
    (s.truExpires).resetLow = s.resetLow ∧ (s.truExpires).freeIndex = s.freeIndex ∧ (s.truExpires).tloss = s.tloss ∧
    (s.truExpires).vw = s.vw ∧ (s.truExpires).cw = s.cw := by
  unfold State.truExpires; (try dsimp only); (repeat' (split <;> try dsimp only)) <;> simp

@[simp] theorem State.zeroLiveCounts_keeps (s : State) :
    (s.zeroLiveCounts).pending = s.pending ∧ (s.zeroLiveCounts).now = s.now ∧ (s.zeroLiveCounts).startUp = s.startUp ∧
    (s.zeroLiveCounts).initEnd = s.initEnd ∧ (s.zeroLiveCounts).resetLow = s.resetLow ∧ (s.zeroLiveCounts).freeIndex =
    s.freeIndex ∧ (s.zeroLiveCounts).xm = s.xm ∧ (s.zeroLiveCounts).rc = s.rc ∧ (s.zeroLiveCounts).reg = s.reg ∧
    (s.zeroLiveCounts).tloss = s.tloss ∧ (s.zeroLiveCounts).pt = s.pt ∧ (s.zeroLiveCounts).tu = s.tu ∧
    (s.zeroLiveCounts).rcu = s.rcu ∧ (s.zeroLiveCounts).rn = s.rn ∧ (s.zeroLiveCounts).cw = s.cw := by simp [State.zeroLiveCounts]

@[simp] theorem State.transfer_keeps (s : State) :
    (s.transfer).pending = s.pending ∧ (s.transfer).now = s.now ∧ (s.transfer).startUp = s.startUp ∧ (s.transfer).initEnd =
    s.initEnd ∧ (s.transfer).resetLow = s.resetLow ∧ (s.transfer).freeIndex = s.freeIndex ∧ (s.transfer).xm = s.xm ∧
    (s.transfer).rc = s.rc ∧ (s.transfer).reg = s.reg ∧ (s.transfer).tloss = s.tloss ∧ (s.transfer).pt = s.pt ∧
    (s.transfer).tu = s.tu ∧ (s.transfer).rcu = s.rcu ∧ (s.transfer).cw = s.cw := by simp [State.transfer]

@[simp] theorem State.requestReport_keeps (s : State) :
    (s.requestReport).pending = s.pending ∧ (s.requestReport).now = s.now ∧ (s.requestReport).startUp = s.startUp ∧
    (s.requestReport).initEnd = s.initEnd ∧ (s.requestReport).resetLow = s.resetLow ∧ (s.requestReport).freeIndex =
    s.freeIndex ∧ (s.requestReport).xm = s.xm ∧ (s.requestReport).rc = s.rc ∧ (s.requestReport).tru = s.tru ∧
    (s.requestReport).reg = s.reg ∧ (s.requestReport).link = s.link ∧ (s.requestReport).tloss = s.tloss ∧
    (s.requestReport).pt = s.pt ∧ (s.requestReport).vw = s.vw ∧ (s.requestReport).tu = s.tu ∧ (s.requestReport).rcu = s.rcu
    ∧ (s.requestReport).cw = s.cw := by
  unfold State.requestReport; (try dsimp only); (repeat' (split <;> try dsimp only)) <;> simp

@[simp] theorem State.completeReport_keeps (s : State) :
    (s.completeReport).pending = s.pending ∧ (s.completeReport).now = s.now ∧ (s.completeReport).startUp = s.startUp ∧
    (s.completeReport).initEnd = s.initEnd ∧ (s.completeReport).resetLow = s.resetLow ∧ (s.completeReport).freeIndex =
    s.freeIndex ∧ (s.completeReport).rc = s.rc ∧ (s.completeReport).tru = s.tru ∧ (s.completeReport).reg = s.reg ∧
    (s.completeReport).link = s.link ∧ (s.completeReport).tloss = s.tloss ∧ (s.completeReport).pt = s.pt ∧
    (s.completeReport).vw = s.vw ∧ (s.completeReport).tu = s.tu ∧ (s.completeReport).rcu = s.rcu ∧ (s.completeReport).cw =
    s.cw := by
  unfold State.completeReport; (try dsimp only); (repeat' (split <;> try dsimp only)) <;> simp

@[simp] theorem State.reportExpires_keeps (s : State) :
    (s.reportExpires).pending = s.pending ∧ (s.reportExpires).startUp = s.startUp ∧ (s.reportExpires).initEnd = s.initEnd ∧
    (s.reportExpires).resetLow = s.resetLow ∧ (s.reportExpires).freeIndex = s.freeIndex ∧ (s.reportExpires).xm = s.xm ∧
    (s.reportExpires).rc = s.rc ∧ (s.reportExpires).reg = s.reg ∧ (s.reportExpires).tloss = s.tloss ∧ (s.reportExpires).pt =
    s.pt ∧ (s.reportExpires).tu = s.tu ∧ (s.reportExpires).rcu = s.rcu ∧ (s.reportExpires).cw = s.cw := by
  unfold State.reportExpires; (try dsimp only); (repeat' (split <;> try dsimp only)) <;> simp

@[simp] theorem State.externalChanges_keeps (s : State) (b : Bool) :
    (s.externalChanges b).pending = s.pending ∧ (s.externalChanges b).now = s.now ∧ (s.externalChanges b).startUp =
    s.startUp ∧ (s.externalChanges b).initEnd = s.initEnd ∧ (s.externalChanges b).resetLow = s.resetLow ∧ (s.externalChanges
    b).freeIndex = s.freeIndex ∧ (s.externalChanges b).xm = s.xm ∧ (s.externalChanges b).rc = s.rc ∧ (s.externalChanges
    b).tru = s.tru ∧ (s.externalChanges b).reg = s.reg ∧ (s.externalChanges b).link = s.link ∧ (s.externalChanges b).tloss =
    s.tloss ∧ (s.externalChanges b).pt = s.pt ∧ (s.externalChanges b).vw = s.vw ∧ (s.externalChanges b).rcu = s.rcu ∧
    (s.externalChanges b).rn = s.rn ∧ (s.externalChanges b).cw = s.cw := by
  unfold State.externalChanges; (repeat' (split <;> try dsimp only)) <;> simp

@[simp] theorem State.externalExpires_keeps (s : State) :
    (s.externalExpires).pending = s.pending ∧ (s.externalExpires).startUp = s.startUp ∧ (s.externalExpires).initEnd =
    s.initEnd ∧ (s.externalExpires).resetLow = s.resetLow ∧ (s.externalExpires).freeIndex = s.freeIndex ∧
    (s.externalExpires).tloss = s.tloss ∧ (s.externalExpires).pt = s.pt ∧ (s.externalExpires).vw = s.vw ∧
    (s.externalExpires).cw = s.cw := by
  unfold State.externalExpires; (try dsimp only); (repeat' (split <;> try dsimp only)) <;> simp

@[simp] theorem setLoopOn_all_keeps (kp ki vlim : Nat) (s : State) (l : List Chan) :
    (l.foldl (setLoopOn kp ki vlim) s).pending = s.pending ∧ (l.foldl (setLoopOn kp ki vlim) s).now = s.now ∧ (l.foldl
    (setLoopOn kp ki vlim) s).startUp = s.startUp ∧ (l.foldl (setLoopOn kp ki vlim) s).initEnd = s.initEnd ∧ (l.foldl
    (setLoopOn kp ki vlim) s).resetLow = s.resetLow ∧ (l.foldl (setLoopOn kp ki vlim) s).freeIndex = s.freeIndex ∧ (l.foldl
    (setLoopOn kp ki vlim) s).xm = s.xm ∧ (l.foldl (setLoopOn kp ki vlim) s).tru = s.tru ∧ (l.foldl (setLoopOn kp ki vlim)
    s).link = s.link ∧ (l.foldl (setLoopOn kp ki vlim) s).tloss = s.tloss ∧ (l.foldl (setLoopOn kp ki vlim) s).pt = s.pt ∧
    (l.foldl (setLoopOn kp ki vlim) s).vw = s.vw ∧ (l.foldl (setLoopOn kp ki vlim) s).tu = s.tu ∧ (l.foldl (setLoopOn kp ki
    vlim) s).rcu = s.rcu ∧ (l.foldl (setLoopOn kp ki vlim) s).rn = s.rn ∧ (l.foldl (setLoopOn kp ki vlim) s).cw = s.cw := by
  induction l generalizing s with
  | nil => simp
  | cons ch l ih => simpa [setLoopOn] using ih (setLoopOn kp ki vlim s ch)

@[simp] theorem setLimitsOn_all_keeps (ioc lba lneg : Nat) (s : State) (l : List Chan) :
    (l.foldl (setLimitsOn ioc lba lneg) s).pending = s.pending ∧ (l.foldl (setLimitsOn ioc lba lneg) s).now = s.now ∧
    (l.foldl (setLimitsOn ioc lba lneg) s).startUp = s.startUp ∧ (l.foldl (setLimitsOn ioc lba lneg) s).initEnd = s.initEnd
    ∧ (l.foldl (setLimitsOn ioc lba lneg) s).resetLow = s.resetLow ∧ (l.foldl (setLimitsOn ioc lba lneg) s).freeIndex =
    s.freeIndex ∧ (l.foldl (setLimitsOn ioc lba lneg) s).xm = s.xm ∧ (l.foldl (setLimitsOn ioc lba lneg) s).link = s.link ∧
    (l.foldl (setLimitsOn ioc lba lneg) s).tloss = s.tloss ∧ (l.foldl (setLimitsOn ioc lba lneg) s).pt = s.pt ∧ (l.foldl
    (setLimitsOn ioc lba lneg) s).vw = s.vw ∧ (l.foldl (setLimitsOn ioc lba lneg) s).tu = s.tu ∧ (l.foldl (setLimitsOn ioc
    lba lneg) s).rcu = s.rcu ∧ (l.foldl (setLimitsOn ioc lba lneg) s).rn = s.rn ∧ (l.foldl (setLimitsOn ioc lba lneg) s).cw
    = s.cw := by
  induction l generalizing s with
  | nil => simp
  | cons ch l ih => simpa [setLimitsOn] using ih (setLimitsOn ioc lba lneg s ch)

@[simp] theorem setSensorOn_all_keeps (o : Order) (s : State) (l : List (Fin 8)) :
    (l.foldl (setSensorOn o) s).pending = s.pending ∧ (l.foldl (setSensorOn o) s).now = s.now ∧ (l.foldl (setSensorOn o)
    s).startUp = s.startUp ∧ (l.foldl (setSensorOn o) s).initEnd = s.initEnd ∧ (l.foldl (setSensorOn o) s).resetLow =
    s.resetLow ∧ (l.foldl (setSensorOn o) s).freeIndex = s.freeIndex ∧ (l.foldl (setSensorOn o) s).xm = s.xm ∧ (l.foldl
    (setSensorOn o) s).rc = s.rc ∧ (l.foldl (setSensorOn o) s).tru = s.tru ∧ (l.foldl (setSensorOn o) s).reg = s.reg ∧
    (l.foldl (setSensorOn o) s).link = s.link ∧ (l.foldl (setSensorOn o) s).tloss = s.tloss ∧ (l.foldl (setSensorOn o) s).pt
    = s.pt ∧ (l.foldl (setSensorOn o) s).tu = s.tu ∧ (l.foldl (setSensorOn o) s).rcu = s.rcu ∧ (l.foldl (setSensorOn o)
    s).cw = s.cw := by
  induction l generalizing s with
  | nil => simp
  | cons i l ih =>
    have h := ih (setSensorOn o s i)
    unfold setSensorOn at h ⊢
    dsimp only at h ⊢
    split at h <;> simp_all

@[simp] theorem ownSetLoop_keeps (o : Order) (s : State) :
    ((ownSetLoop o s).1).pending = s.pending ∧ ((ownSetLoop o s).1).now = s.now ∧ ((ownSetLoop o s).1).startUp = s.startUp ∧
    ((ownSetLoop o s).1).initEnd = s.initEnd ∧ ((ownSetLoop o s).1).resetLow = s.resetLow ∧ ((ownSetLoop o s).1).freeIndex =
    s.freeIndex ∧ ((ownSetLoop o s).1).xm = s.xm ∧ ((ownSetLoop o s).1).tru = s.tru ∧ ((ownSetLoop o s).1).link = s.link ∧
    ((ownSetLoop o s).1).tloss = s.tloss ∧ ((ownSetLoop o s).1).pt = s.pt ∧ ((ownSetLoop o s).1).vw = s.vw ∧ ((ownSetLoop o
    s).1).tu = s.tu ∧ ((ownSetLoop o s).1).rcu = s.rcu ∧ ((ownSetLoop o s).1).rn = s.rn ∧ ((ownSetLoop o s).1).cw = s.cw := by
  unfold ownSetLoop rangeChecked
  cases targetChannels o.target with
  | none => simp
  | some l => dsimp only; split <;> simp

@[simp] theorem ownSetLimits_keeps (o : Order) (s : State) :
    ((ownSetLimits o s).1).pending = s.pending ∧ ((ownSetLimits o s).1).now = s.now ∧ ((ownSetLimits o s).1).startUp =
    s.startUp ∧ ((ownSetLimits o s).1).initEnd = s.initEnd ∧ ((ownSetLimits o s).1).resetLow = s.resetLow ∧ ((ownSetLimits o
    s).1).freeIndex = s.freeIndex ∧ ((ownSetLimits o s).1).xm = s.xm ∧ ((ownSetLimits o s).1).link = s.link ∧ ((ownSetLimits
    o s).1).tloss = s.tloss ∧ ((ownSetLimits o s).1).pt = s.pt ∧ ((ownSetLimits o s).1).vw = s.vw ∧ ((ownSetLimits o
    s).1).tu = s.tu ∧ ((ownSetLimits o s).1).rcu = s.rcu ∧ ((ownSetLimits o s).1).rn = s.rn ∧ ((ownSetLimits o s).1).cw =
    s.cw := by
  unfold ownSetLimits rangeChecked
  cases targetChannels o.target with
  | none => simp
  | some l => dsimp only; split <;> simp

@[simp] theorem ownLoadEnvelope_keeps (o : Order) (s : State) :
    ((ownLoadEnvelope o s).1).pending = s.pending ∧ ((ownLoadEnvelope o s).1).now = s.now ∧ ((ownLoadEnvelope o
    s).1).startUp = s.startUp ∧ ((ownLoadEnvelope o s).1).initEnd = s.initEnd ∧ ((ownLoadEnvelope o s).1).resetLow =
    s.resetLow ∧ ((ownLoadEnvelope o s).1).freeIndex = s.freeIndex ∧ ((ownLoadEnvelope o s).1).xm = s.xm ∧ ((ownLoadEnvelope
    o s).1).reg = s.reg ∧ ((ownLoadEnvelope o s).1).link = s.link ∧ ((ownLoadEnvelope o s).1).tloss = s.tloss ∧
    ((ownLoadEnvelope o s).1).pt = s.pt ∧ ((ownLoadEnvelope o s).1).vw = s.vw ∧ ((ownLoadEnvelope o s).1).tu = s.tu ∧
    ((ownLoadEnvelope o s).1).rcu = s.rcu ∧ ((ownLoadEnvelope o s).1).rn = s.rn ∧ ((ownLoadEnvelope o s).1).cw = s.cw := by
  unfold ownLoadEnvelope; (try dsimp only); (repeat' (split <;> try dsimp only)) <;> simp

@[simp] theorem ownSetShare_keeps (o : Order) (s : State) :
    ((ownSetShare o s).1).pending = s.pending ∧ ((ownSetShare o s).1).now = s.now ∧ ((ownSetShare o s).1).startUp =
    s.startUp ∧ ((ownSetShare o s).1).initEnd = s.initEnd ∧ ((ownSetShare o s).1).resetLow = s.resetLow ∧ ((ownSetShare o
    s).1).freeIndex = s.freeIndex ∧ ((ownSetShare o s).1).xm = s.xm ∧ ((ownSetShare o s).1).rc = s.rc ∧ ((ownSetShare o
    s).1).reg = s.reg ∧ ((ownSetShare o s).1).link = s.link ∧ ((ownSetShare o s).1).tloss = s.tloss ∧ ((ownSetShare o
    s).1).pt = s.pt ∧ ((ownSetShare o s).1).vw = s.vw ∧ ((ownSetShare o s).1).tu = s.tu ∧ ((ownSetShare o s).1).rcu = s.rcu
    ∧ ((ownSetShare o s).1).rn = s.rn ∧ ((ownSetShare o s).1).cw = s.cw := by
  unfold ownSetShare rangeChecked; split <;> simp

@[simp] theorem ownSetReference_keeps (o : Order) (s : State) :
    ((ownSetReference o s).1).pending = s.pending ∧ ((ownSetReference o s).1).now = s.now ∧ ((ownSetReference o
    s).1).startUp = s.startUp ∧ ((ownSetReference o s).1).initEnd = s.initEnd ∧ ((ownSetReference o s).1).resetLow =
    s.resetLow ∧ ((ownSetReference o s).1).freeIndex = s.freeIndex ∧ ((ownSetReference o s).1).xm = s.xm ∧ ((ownSetReference
    o s).1).rc = s.rc ∧ ((ownSetReference o s).1).reg = s.reg ∧ ((ownSetReference o s).1).link = s.link ∧ ((ownSetReference
    o s).1).tloss = s.tloss ∧ ((ownSetReference o s).1).pt = s.pt ∧ ((ownSetReference o s).1).vw = s.vw ∧ ((ownSetReference
    o s).1).tu = s.tu ∧ ((ownSetReference o s).1).rcu = s.rcu ∧ ((ownSetReference o s).1).rn = s.rn ∧ ((ownSetReference o
    s).1).cw = s.cw := by
  unfold ownSetReference rangeChecked; split <;> simp

@[simp] theorem ownSetSensor_keeps (o : Order) (s : State) :
    ((ownSetSensor o s).1).pending = s.pending ∧ ((ownSetSensor o s).1).now = s.now ∧ ((ownSetSensor o s).1).startUp =
    s.startUp ∧ ((ownSetSensor o s).1).initEnd = s.initEnd ∧ ((ownSetSensor o s).1).resetLow = s.resetLow ∧ ((ownSetSensor o
    s).1).freeIndex = s.freeIndex ∧ ((ownSetSensor o s).1).xm = s.xm ∧ ((ownSetSensor o s).1).rc = s.rc ∧ ((ownSetSensor o
    s).1).tru = s.tru ∧ ((ownSetSensor o s).1).reg = s.reg ∧ ((ownSetSensor o s).1).link = s.link ∧ ((ownSetSensor o
    s).1).tloss = s.tloss ∧ ((ownSetSensor o s).1).pt = s.pt ∧ ((ownSetSensor o s).1).tu = s.tu ∧ ((ownSetSensor o s).1).rcu
    = s.rcu ∧ ((ownSetSensor o s).1).cw = s.cw := by
  unfold ownSetSensor rangeChecked
  cases targetSensors o.target with
  | none => simp
  | some l => dsimp only; split <;> simp

@[simp] theorem ownSetWatch_keeps (o : Order) (s : State) :
    ((ownSetWatch o s).1).pending = s.pending ∧ ((ownSetWatch o s).1).now = s.now ∧ ((ownSetWatch o s).1).startUp =
    s.startUp ∧ ((ownSetWatch o s).1).initEnd = s.initEnd ∧ ((ownSetWatch o s).1).resetLow = s.resetLow ∧ ((ownSetWatch o
    s).1).freeIndex = s.freeIndex ∧ ((ownSetWatch o s).1).xm = s.xm ∧ ((ownSetWatch o s).1).rc = s.rc ∧ ((ownSetWatch o
    s).1).tru = s.tru ∧ ((ownSetWatch o s).1).reg = s.reg ∧ ((ownSetWatch o s).1).link = s.link ∧ ((ownSetWatch o
    s).1).tloss = s.tloss ∧ ((ownSetWatch o s).1).pt = s.pt ∧ ((ownSetWatch o s).1).tu = s.tu ∧ ((ownSetWatch o s).1).rcu =
    s.rcu ∧ ((ownSetWatch o s).1).rn = s.rn ∧ ((ownSetWatch o s).1).cw = s.cw := by
  unfold ownSetWatch rangeChecked; split <;> simp

@[simp] theorem ownSetPosition_keeps (o : Order) (s : State) :
    ((ownSetPosition o s).1).pending = s.pending ∧ ((ownSetPosition o s).1).now = s.now ∧ ((ownSetPosition o s).1).startUp =
    s.startUp ∧ ((ownSetPosition o s).1).initEnd = s.initEnd ∧ ((ownSetPosition o s).1).resetLow = s.resetLow ∧
    ((ownSetPosition o s).1).freeIndex = s.freeIndex ∧ ((ownSetPosition o s).1).xm = s.xm ∧ ((ownSetPosition o s).1).tru =
    s.tru ∧ ((ownSetPosition o s).1).reg = s.reg ∧ ((ownSetPosition o s).1).link = s.link ∧ ((ownSetPosition o s).1).tloss =
    s.tloss ∧ ((ownSetPosition o s).1).vw = s.vw ∧ ((ownSetPosition o s).1).tu = s.tu ∧ ((ownSetPosition o s).1).rcu = s.rcu
    ∧ ((ownSetPosition o s).1).rn = s.rn ∧ ((ownSetPosition o s).1).cw = s.cw := by
  unfold ownSetPosition rangeChecked; split <;> simp

@[simp] theorem ownSetReport_keeps (o : Order) (s : State) :
    ((ownSetReport o s).1).pending = s.pending ∧ ((ownSetReport o s).1).now = s.now ∧ ((ownSetReport o s).1).startUp =
    s.startUp ∧ ((ownSetReport o s).1).initEnd = s.initEnd ∧ ((ownSetReport o s).1).resetLow = s.resetLow ∧ ((ownSetReport o
    s).1).freeIndex = s.freeIndex ∧ ((ownSetReport o s).1).xm = s.xm ∧ ((ownSetReport o s).1).rc = s.rc ∧ ((ownSetReport o
    s).1).tru = s.tru ∧ ((ownSetReport o s).1).reg = s.reg ∧ ((ownSetReport o s).1).link = s.link ∧ ((ownSetReport o
    s).1).pt = s.pt ∧ ((ownSetReport o s).1).vw = s.vw ∧ ((ownSetReport o s).1).tu = s.tu ∧ ((ownSetReport o s).1).rcu =
    s.rcu ∧ ((ownSetReport o s).1).cw = s.cw := by
  unfold ownSetReport rangeChecked; split <;> simp

@[simp] theorem ownRun_keeps (o : Order) (s : State) :
    ((ownRun o s).1).pending = s.pending ∧ ((ownRun o s).1).now = s.now ∧ ((ownRun o s).1).startUp = s.startUp ∧ ((ownRun o
    s).1).initEnd = s.initEnd ∧ ((ownRun o s).1).resetLow = s.resetLow ∧ ((ownRun o s).1).freeIndex = s.freeIndex ∧ ((ownRun
    o s).1).xm = s.xm ∧ ((ownRun o s).1).tru = s.tru ∧ ((ownRun o s).1).link = s.link ∧ ((ownRun o s).1).tloss = s.tloss ∧
    ((ownRun o s).1).pt = s.pt ∧ ((ownRun o s).1).tu = s.tu ∧ ((ownRun o s).1).rcu = s.rcu ∧ ((ownRun o s).1).cw = s.cw := by
  unfold ownRun State.startRun; split <;> simp

@[simp] theorem ownStop_keeps (o : Order) (s : State) :
    ((ownStop o s).1).pending = s.pending ∧ ((ownStop o s).1).now = s.now ∧ ((ownStop o s).1).startUp = s.startUp ∧
    ((ownStop o s).1).initEnd = s.initEnd ∧ ((ownStop o s).1).resetLow = s.resetLow ∧ ((ownStop o s).1).freeIndex =
    s.freeIndex ∧ ((ownStop o s).1).xm = s.xm ∧ ((ownStop o s).1).tru = s.tru ∧ ((ownStop o s).1).reg = s.reg ∧ ((ownStop o
    s).1).link = s.link ∧ ((ownStop o s).1).tloss = s.tloss ∧ ((ownStop o s).1).pt = s.pt ∧ ((ownStop o s).1).vw = s.vw ∧
    ((ownStop o s).1).tu = s.tu ∧ ((ownStop o s).1).rcu = s.rcu ∧ ((ownStop o s).1).cw = s.cw := by
  unfold ownStop; split <;> simp

@[simp] theorem ownTripReset_keeps (o : Order) (s : State) :
    ((ownTripReset o s).1).pending = s.pending ∧ ((ownTripReset o s).1).now = s.now ∧ ((ownTripReset o s).1).startUp =
    s.startUp ∧ ((ownTripReset o s).1).initEnd = s.initEnd ∧ ((ownTripReset o s).1).resetLow = s.resetLow ∧ ((ownTripReset o
    s).1).freeIndex = s.freeIndex ∧ ((ownTripReset o s).1).xm = s.xm ∧ ((ownTripReset o s).1).tru = s.tru ∧ ((ownTripReset o
    s).1).reg = s.reg ∧ ((ownTripReset o s).1).link = s.link ∧ ((ownTripReset o s).1).tloss = s.tloss ∧ ((ownTripReset o
    s).1).pt = s.pt ∧ ((ownTripReset o s).1).vw = s.vw ∧ ((ownTripReset o s).1).rcu = s.rcu ∧ ((ownTripReset o s).1).cw =
    s.cw := by
  unfold ownTripReset; (try dsimp only); (repeat' (split <;> try dsimp only)) <;> simp

@[simp] theorem ownIsolate_keeps (o : Order) (s : State) :
    ((ownIsolate o s).1).pending = s.pending ∧ ((ownIsolate o s).1).now = s.now ∧ ((ownIsolate o s).1).startUp = s.startUp ∧
    ((ownIsolate o s).1).initEnd = s.initEnd ∧ ((ownIsolate o s).1).resetLow = s.resetLow ∧ ((ownIsolate o s).1).freeIndex =
    s.freeIndex ∧ ((ownIsolate o s).1).xm = s.xm ∧ ((ownIsolate o s).1).tru = s.tru ∧ ((ownIsolate o s).1).reg = s.reg ∧
    ((ownIsolate o s).1).link = s.link ∧ ((ownIsolate o s).1).tloss = s.tloss ∧ ((ownIsolate o s).1).vw = s.vw ∧
    ((ownIsolate o s).1).tu = s.tu ∧ ((ownIsolate o s).1).rcu = s.rcu ∧ ((ownIsolate o s).1).rn = s.rn ∧ ((ownIsolate o
    s).1).cw = s.cw := by
  unfold ownIsolate State.setIsolation; (repeat' (split <;> try dsimp only)) <;> simp

@[simp] theorem ownRestore_keeps (o : Order) (s : State) :
    ((ownRestore o s).1).pending = s.pending ∧ ((ownRestore o s).1).now = s.now ∧ ((ownRestore o s).1).startUp = s.startUp ∧
    ((ownRestore o s).1).initEnd = s.initEnd ∧ ((ownRestore o s).1).resetLow = s.resetLow ∧ ((ownRestore o s).1).freeIndex =
    s.freeIndex ∧ ((ownRestore o s).1).xm = s.xm ∧ ((ownRestore o s).1).tru = s.tru ∧ ((ownRestore o s).1).reg = s.reg ∧
    ((ownRestore o s).1).link = s.link ∧ ((ownRestore o s).1).tloss = s.tloss ∧ ((ownRestore o s).1).vw = s.vw ∧
    ((ownRestore o s).1).tu = s.tu ∧ ((ownRestore o s).1).rcu = s.rcu ∧ ((ownRestore o s).1).rn = s.rn ∧ ((ownRestore o
    s).1).cw = s.cw := by
  unfold ownRestore State.setIsolation; (repeat' (split <;> try dsimp only)) <;> simp

@[simp] theorem ownClearDerate_keeps (o : Order) (s : State) :
    ((ownClearDerate o s).1).pending = s.pending ∧ ((ownClearDerate o s).1).now = s.now ∧ ((ownClearDerate o s).1).startUp =
    s.startUp ∧ ((ownClearDerate o s).1).initEnd = s.initEnd ∧ ((ownClearDerate o s).1).resetLow = s.resetLow ∧
    ((ownClearDerate o s).1).freeIndex = s.freeIndex ∧ ((ownClearDerate o s).1).xm = s.xm ∧ ((ownClearDerate o s).1).rc =
    s.rc ∧ ((ownClearDerate o s).1).tru = s.tru ∧ ((ownClearDerate o s).1).reg = s.reg ∧ ((ownClearDerate o s).1).link =
    s.link ∧ ((ownClearDerate o s).1).tloss = s.tloss ∧ ((ownClearDerate o s).1).pt = s.pt ∧ ((ownClearDerate o s).1).tu =
    s.tu ∧ ((ownClearDerate o s).1).rcu = s.rcu ∧ ((ownClearDerate o s).1).cw = s.cw := by
  unfold ownClearDerate; (repeat' (split <;> try dsimp only)) <;> simp

@[simp] theorem ownTestTrip_keeps (o : Order) (s : State) :
    ((ownTestTrip o s).1).pending = s.pending ∧ ((ownTestTrip o s).1).now = s.now ∧ ((ownTestTrip o s).1).startUp =
    s.startUp ∧ ((ownTestTrip o s).1).initEnd = s.initEnd ∧ ((ownTestTrip o s).1).resetLow = s.resetLow ∧ ((ownTestTrip o
    s).1).freeIndex = s.freeIndex ∧ ((ownTestTrip o s).1).tloss = s.tloss ∧ ((ownTestTrip o s).1).pt = s.pt ∧ ((ownTestTrip
    o s).1).vw = s.vw ∧ ((ownTestTrip o s).1).cw = s.cw := by
  unfold ownTestTrip; split <;> simp

@[simp] theorem ownInjectLevel_keeps (o : Order) (s : State) :
    ((ownInjectLevel o s).1).pending = s.pending ∧ ((ownInjectLevel o s).1).now = s.now ∧ ((ownInjectLevel o s).1).startUp =
    s.startUp ∧ ((ownInjectLevel o s).1).initEnd = s.initEnd ∧ ((ownInjectLevel o s).1).resetLow = s.resetLow ∧
    ((ownInjectLevel o s).1).freeIndex = s.freeIndex ∧ ((ownInjectLevel o s).1).xm = s.xm ∧ ((ownInjectLevel o s).1).rc =
    s.rc ∧ ((ownInjectLevel o s).1).tru = s.tru ∧ ((ownInjectLevel o s).1).reg = s.reg ∧ ((ownInjectLevel o s).1).link =
    s.link ∧ ((ownInjectLevel o s).1).tloss = s.tloss ∧ ((ownInjectLevel o s).1).pt = s.pt ∧ ((ownInjectLevel o s).1).tu =
    s.tu ∧ ((ownInjectLevel o s).1).rcu = s.rcu ∧ ((ownInjectLevel o s).1).rn = s.rn ∧ ((ownInjectLevel o s).1).cw = s.cw := by
  unfold ownInjectLevel rangeChecked; (repeat' split) <;> simp

@[simp] theorem ownTransferCounts_keeps (o : Order) (s : State) :
    ((ownTransferCounts o s).1).pending = s.pending ∧ ((ownTransferCounts o s).1).now = s.now ∧ ((ownTransferCounts o
    s).1).startUp = s.startUp ∧ ((ownTransferCounts o s).1).initEnd = s.initEnd ∧ ((ownTransferCounts o s).1).resetLow =
    s.resetLow ∧ ((ownTransferCounts o s).1).freeIndex = s.freeIndex ∧ ((ownTransferCounts o s).1).xm = s.xm ∧
    ((ownTransferCounts o s).1).rc = s.rc ∧ ((ownTransferCounts o s).1).reg = s.reg ∧ ((ownTransferCounts o s).1).tloss =
    s.tloss ∧ ((ownTransferCounts o s).1).pt = s.pt ∧ ((ownTransferCounts o s).1).tu = s.tu ∧ ((ownTransferCounts o
    s).1).rcu = s.rcu ∧ ((ownTransferCounts o s).1).cw = s.cw := by simp [ownTransferCounts]

end Sys2Proof.Machine
end

