-- ==== Sys2Proof/Laws/Orders.lean ====
section
/-! SUPPORT. What a take-up can do, said once: the record that is ready, and what an owner that accepts or refuses leaves. -/

namespace Sys2Proof.Machine

/-! ### Codes and records -/

/-- The code of a kind names it again (11.4). -/
@[simp] theorem OrderKind.ofCode_code (k : OrderKind) : OrderKind.ofCode k.code = some k := by cases k <;> rfl

/-- Every record has at least two words. -/
theorem OrderKind.two_le_length (k : OrderKind) : 2 ≤ k.length := by cases k <;> decide

/-- No record is longer than a record of LOAD ENVELOPE. -/
theorem OrderKind.length_le (k : OrderKind) : k.length ≤ 19 := by cases k <;> decide

/-- The words read from an offset on. -/
theorem Memory.readBlock_getD (m : Memory) (a n i : Nat) (h : i < n) :
    ((m.readBlock a n).map BitVec.toNat).getD i 0 = (m.read (a + i)).toNat := by
  induction n generalizing a i with
  | zero => omega
  | succ n ih =>
    cases i with
    | zero => simp [Memory.readBlock]
    | succ i =>
      have hi : i < n := by omega
      have := ih (a + 1) i hi
      simp only [Memory.readBlock, List.map_cons, List.getD_cons_succ]
      rw [this]; congr 2; omega

/-- A record that is ready is the one the walker takes up (R167, R168). -/
theorem State.RecordReady.kind {s : State} {k : OrderKind} (h : s.RecordReady k) : s.recordKind = some k := by
  obtain ⟨hw, hi, hlo, hhi, hk, hl⟩ := h
  have hkind : s.recordHeader.kind = k.code := hk
  have hlen : s.recordHeader.length = k.length := hl
  have h2 := k.two_le_length
  have hf : s.formatFault = none := by
    unfold State.formatFault
    simp only [hkind, hlen, OrderKind.ofCode_code, ne_eq, not_true_eq_false, if_false]
    rw [if_neg (by omega), if_neg (by omega), if_neg (by omega)]
  unfold State.recordKind
  rw [if_pos ⟨hw, hf⟩, hkind, OrderKind.ofCode_code]

/-- The parameters of a ready record. -/
theorem State.RecordReady.par {s : State} {k : OrderKind} (h : s.RecordReady k) (i : Nat) (hi : i + 2 < k.length) :
    s.recordOrder.p i = s.par i := by
  have hlen : s.recordHeader.length = k.length := h.2.2.2.2.2
  unfold Order.p State.recordOrder State.par
  rw [hlen]
  exact Memory.readBlock_getD _ _ _ _ (by omega)

/-- The target of a record. -/
theorem State.recordOrder_target (s : State) : s.recordOrder.target = Target.ofCode s.targetCode := rfl

/-- The record's own header is not part of what an order's owner changes: writing a result keeps every other word. -/
theorem State.read_writeResult (s : State) (off : Nat) (r : OrderResult) (a : Nat) (h : a < Config.xmWords) :
    (s.writeResult off r).xm.read a =
      if a = off + 1 ∧ 0x0400 ≤ a ∧ a ≤ 0x0FFF then r.word else s.xm.read a := by
  unfold State.writeResult
  by_cases h1 : 0x0400 ≤ off + 1 ∧ off + 1 ≤ 0x0FFF
  · rw [if_pos h1]
    show Memory.read (s.xm.write (off + 1) r.word) a = _
    rw [Memory.read_write _ _ _ _ h]
    by_cases ha : a = off + 1
    · subst ha; simp [h1]
    · simp [ha]
  · rw [if_neg h1]
    rw [if_neg]; rintro ⟨rfl, h2⟩; exact h1 h2

/-! ### Take-ups -/

/-- A take-up either finds no record of its kind, and does nothing, or is the owner's act with the walker's part. -/
theorem takeUp_cases (k : OrderKind) (owner : Order → State → State × OrderResult) (s : State) :
    takeUp k owner s = s ∨
      takeUp k owner s =
        (owner s.recordOrder s.countRecord).1.finishRecord s.cw.nextOffset s.recordHeader (owner s.recordOrder s.countRecord).2 := by
  unfold takeUp; split
  · exact .inr rfl
  · exact .inl rfl

/-- The take-up of a ready record whose owner completes the order. -/
theorem takeUp_done {k : OrderKind} {owner : Order → State → State × OrderResult} {s u : State} (hr : s.RecordReady k)
    (ho : owner s.recordOrder s.countRecord = (u, resDone)) (hcw : u.cw = s.countRecord.cw) :
    RecordDone k s u (takeUp k owner s) := by
  have hlen : s.recordHeader.length = k.length := hr.2.2.2.2.2
  have h2 := k.two_le_length
  have hkind := hr.kind
  obtain ⟨hw, hi, hlo, hhi, -, -⟩ := hr
  unfold takeUp
  rw [if_pos hkind]
  simp only [ho]
  have hword : resDone.word = 0x0100#16 := by decide
  have hacc : resDone.accepted = true := rfl
  have hxm : (u.finishRecord s.cw.nextOffset s.recordHeader resDone).xm = (u.writeResult s.cw.nextOffset resDone).xm := by
    unfold State.finishRecord; simp only [hacc]; (repeat' split) <;> rfl
  refine ⟨fun a ha => ?_, ?_⟩
  · rw [hxm, State.read_writeResult _ _ _ _ ha, hword]
    by_cases h : a = s.cw.nextOffset + 1
    · rw [if_pos ⟨h, by omega, by omega⟩, if_pos h]
    · rw [if_neg (fun hc => h hc.1), if_neg h]
  · have hcw2 : (u.writeResult s.cw.nextOffset resDone).cw = s.countRecord.cw := by simp [hcw]
    have hend : s.endMark = s.recordHeader.endMark := rfl
    have hwx : u.writeResult s.cw.nextOffset resDone = { u with xm := (u.writeResult s.cw.nextOffset resDone).xm } := by
      unfold State.writeResult; split <;> rfl
    rw [hxm]
    unfold State.finishRecord
    simp only [hacc, hend, hlen]
    cases s.recordHeader.endMark
    · simp only [Bool.not_true, Bool.false_eq_true, if_false, Bool.not_false]
      rw [hcw2, hwx]
      simp [hw]
    · simp only [Bool.not_true, Bool.false_eq_true, if_false, if_true]
      unfold State.endWalk
      rw [hcw2, hwx]
      simp [State.notify, Notice.mark, Notice.bitNumber]

/-- The take-up of a ready record whose owner refuses the order. -/
theorem takeUp_refused {k : OrderKind} {owner : Order → State → State × OrderResult} {s : State} {r : OrderResult}
    (hr : s.RecordReady k) (ho : owner s.recordOrder s.countRecord = (s.countRecord, r)) (hc : r.accepted = false) :
    RecordRefused r.word s (takeUp k owner s) := by
  have h2 := k.two_le_length
  have hkind := hr.kind
  obtain ⟨hw, hi, hlo, hhi, -, -⟩ := hr
  unfold takeUp
  rw [if_pos hkind]
  simp only [ho]
  have hfin : s.countRecord.finishRecord s.cw.nextOffset s.recordHeader r =
      (s.countRecord.writeResult s.cw.nextOffset r).endWalk .refused := by
    unfold State.finishRecord; simp [hc]
  have hwx : s.countRecord.writeResult s.cw.nextOffset r =
      { s.countRecord with xm := (s.countRecord.writeResult s.cw.nextOffset r).xm } := by
    unfold State.writeResult; split <;> rfl
  rw [hfin]
  refine ⟨fun a ha => ?_, ?_⟩
  · simp only [State.endWalk_xm]
    rw [State.read_writeResult _ _ _ _ ha]
    by_cases h : a = s.cw.nextOffset + 1
    · rw [if_pos ⟨h, by omega, by omega⟩, if_pos h]
    · rw [if_neg (fun hc => h hc.1), if_neg h]; rfl
  · simp only [State.endWalk_xm]
    conv_lhs => rw [hwx]
    simp [State.endWalk, State.notify, State.countRecord, Notice.mark, Notice.bitNumber]

end Sys2Proof.Machine
end

