-- ==== Sys2Proof/Laws/Reads.lean ====
section
/-! SUPPORT. What a host read finds that falls with an event, said once: the words of the event's stages in their order. -/

namespace Sys2Proof.Machine

/-- A host read of exchange memory outside the INIT of power-on finds the word as it stands (R158, R162). -/
theorem State.hostRead_memory (s : State) (h : s.startUp ≠ .initPowerOn) {a : Nat} (ha : a < Config.xmWords) :
    s.hostRead (BitVec.ofNat 14 a) = s.xm.read a := by
  have e : (BitVec.ofNat 14 a).toNat = a := by simp [BitVec.toNat_ofNat]; unfold Config.xmWords at ha; omega
  unfold State.hostRead
  simp only [e, if_pos ha, if_neg h]

/-- While an event that writes each word once is under way, a word reads as before or as the event leaves it, and once it no longer
reads as before, every word of an earlier stage reads as the event leaves it (R131, R159). -/
theorem State.hostReadDuring_inOrder (s t : State) (p : Progress) (k : Nat) (stage : Nat → Option Nat)
    (hr : s.startUp ≠ .initPowerOn) (hn : (s.eventOrder t).flatten.Nodup)
    (hx : ∀ a ∈ (s.eventOrder t).flatten, a < Config.xmWords)
    (hs : ∀ a j, stage a = some j → ∃ g, (s.eventOrder t)[j]? = some g ∧ a ∈ g) :
    WrittenInOrder (fun a => s.hostReadAt p (BitVec.ofNat 14 a)) (fun a => t.xm.read a)
      (fun a => s.hostReadDuring t p k (BitVec.ofNat 14 a)) stage := by
  have hfl : (s.eventStages t).flatten = (s.eventOrder t).flatten.map fun a => (a, t.xm.read a) := by
    rw [State.eventStages, List.map_flatten]
  have hn' : ((s.eventStages t).flatten.map (·.1)).Nodup := by
    rw [hfl, List.map_map]; exact (List.map_id' _).symm ▸ hn
  have hx' : ∀ c ∈ (s.eventStages t).flatten, c.1 < Config.xmWords := by
    intro c hc; rw [hfl] at hc; obtain ⟨a, ha, rfl⟩ := List.mem_map.1 hc; exact hx a ha
  have hcell : ∀ a j, stage a = some j →
      ∃ g, (s.eventStages t)[j]? = some g ∧ (a, t.xm.read a) ∈ g ∧ a < Config.xmWords := by
    intro a j h
    obtain ⟨g, hg, ha⟩ := hs a j h
    refine ⟨g.map fun b => (b, t.xm.read b), by rw [State.eventStages, List.getElem?_map, hg]; rfl,
      List.mem_map.2 ⟨a, ha, rfl⟩, ?_⟩
    exact hx a (List.mem_flatten.2 ⟨g, List.mem_of_getElem? hg, ha⟩)
  intro a j h
  obtain ⟨g, hg, hc, ha⟩ := hcell a j h
  obtain ⟨h1, h2⟩ := written_inOrder (words := p.words) (s.memoryAt p) k hn' hx' hg hc
  have seen : ∀ b < Config.xmWords, s.hostReadDuring t p k (BitVec.ofNat 14 b) =
      ((s.memoryAt p).writeAll (writtenStages p.words (s.eventStages t) k)).read b := fun b hb =>
    State.hostRead_memory { s with xm := (s.memoryAt p).writeAll (writtenStages p.words (s.eventStages t) k) } hr hb
  have before : s.hostReadAt p (BitVec.ofNat 14 a) = (s.memoryAt p).read a :=
    State.hostRead_memory { s with xm := s.memoryAt p } hr ha
  simp only [seen a ha, before]
  refine ⟨h1, fun hne b i hb hi => ?_⟩
  obtain ⟨f, hf, hd, hbx⟩ := hcell b i hb
  rw [seen b hbx]
  exact h2 hne i hi f hf _ hd

end Sys2Proof.Machine
end

