-- ==== Sys2Proof/Laws/Resets.lean ====
section
/-! SUPPORT. What a warm reset leaves, said once. -/

namespace Sys2Proof.Machine

/-- The slot state words lie at 0x1000, 0x1800, 0x2000 and 0x2800. -/
theorem slotStateOffset_lt (n : Fin 4) : slotStateOffset n < Config.xmWords := by
  unfold slotStateOffset Config.xmWords; have := n.isLt; omega

/-- Two slots have two state words. -/
theorem slotStateOffset_inj {n k : Fin 4} (h : slotStateOffset n = slotStateOffset k) : n = k := by
  unfold slotStateOffset at h; exact Fin.ext (by omega)

/-- Emptying the slots leaves every word but the state words, and those as R155 says. -/
theorem read_emptyFilling (capture : Option (Fin 4)) (m : Memory) (a : Nat) (ha : a < Config.xmWords) :
    ((∀ n, a ≠ slotStateOffset n) → (emptyFilling capture m).read a = m.read a) ∧
    (∀ n, a = slotStateOffset n →
      (emptyFilling capture m).read a = if capture = some n ∨ m.read a = 1 then 0 else m.read a) := by
  have key : ∀ (l : List (Fin 4)) (m : Memory), l.Nodup →
      let r := l.foldl (fun acc n =>
        if capture = some n ∨ acc.read (slotStateOffset n) = 1 then acc.write (slotStateOffset n) 0 else acc) m
      ((∀ n ∈ l, a ≠ slotStateOffset n) → r.read a = m.read a) ∧
      (∀ n ∈ l, a = slotStateOffset n → r.read a = if capture = some n ∨ m.read a = 1 then 0 else m.read a) := by
    intro l
    induction l with
    | nil => intro m _; exact ⟨fun _ => rfl, fun n hn => absurd hn (by simp)⟩
    | cons k l ih =>
      intro m hl
      obtain ⟨hk, hl⟩ := List.nodup_cons.1 hl
      simp only [List.foldl_cons]
      obtain ⟨i1, i2⟩ := ih
        (if capture = some k ∨ m.read (slotStateOffset k) = 1 then m.write (slotStateOffset k) 0 else m) hl
      have hstep : a ≠ slotStateOffset k →
          Memory.read (if capture = some k ∨ m.read (slotStateOffset k) = 1 then m.write (slotStateOffset k) 0 else m) a =
            m.read a := by
        intro h; split
        · rw [Memory.read_write _ _ _ _ ha, if_neg h]
        · rfl
      refine ⟨fun h => ?_, fun n hn e => ?_⟩
      · rw [i1 fun n hn => h n (List.mem_cons_of_mem _ hn), hstep (h k (by simp))]
      · rcases List.mem_cons.1 hn with rfl | hn
        · rw [i1 fun k' hk' e' => hk (by rw [slotStateOffset_inj (e.symm.trans e')]; exact hk'), ← e]
          split
          · rw [Memory.read_write _ _ _ _ ha, if_pos rfl]
          · rfl
        · rw [i2 n hn e, hstep fun e' => hk (by rw [slotStateOffset_inj (e'.symm.trans e)]; exact hn)]
  have hk := key [0, 1, 2, 3] m (by decide)
  exact ⟨fun h => hk.1 fun n _ => h n, fun n => hk.2 n (by revert n; decide)⟩

/-- Where a publication and a report have written their first words and not their last, these hold the new number and the old
(R93, R160, R176). -/
theorem State.memoryAt_ends (s : State) (p : Progress) (hl : s.LayoutInv) (hp : p.stage .publication = 1)
    (hr : p.stage .report = 1) :
    (∀ pub, s.pt.inFlight = some pub →
      (s.memoryAt p).read 0x0300 = wordN pub.number ∧ (s.memoryAt p).read 0x030F = s.xm.read 0x030F) ∧
    (∀ ws, s.rn.inFlight = some ws →
      some ((s.memoryAt p).read 0x0010) = ws[0]? ∧ (s.memoryAt p).read 0x00FF = s.xm.read 0x00FF) := by
  obtain ⟨-, htab, -, hrep, -⟩ := hl
  have hC : ∀ c ∈ p.written .copy (s.stages .copy), 0x1000 < c.1 := by
    intro c hc
    have hc := (writtenStages_sublist _ _ _).subset hc
    simp only [State.stages] at hc
    split at hc
    · rename_i n j _ _
      have := CopyJob.mem_cells hc; unfold slotStateOffset at this; omega
    · simp at hc
  have hR : ∀ c ∈ p.written .report (s.stages .report), 0x0010 ≤ c.1 ∧ c.1 < 0x00FF := by
    intro c hc
    simp only [State.stages] at hc
    split at hc
    · rename_i ws e
      have hlen := hrep ws e
      simp only [Progress.written, hr, reportStages, writtenStages] at hc
      rcases List.mem_append.1 hc with hc | hc
      · match ws, hlen with
        | w :: ws, _ => simp only [cellRun, List.take_succ_cons, List.take_zero, List.mem_singleton] at hc; subst hc; simp
      · have hc := (List.mem_filter.1 hc).1
        rw [show List.take 238 (List.drop 1 (cellRun 16 ws)) = List.drop 1 (List.take 239 (cellRun 16 ws)) by
          rw [List.drop_take]] at hc
        have := mem_cellRun (take_cellRun 16 239 ws ▸ List.mem_of_mem_drop hc)
        rw [List.length_take, hlen] at this; omega
    · simp [Progress.written, writtenStages] at hc
  have hP : ∀ c ∈ p.written .publication (s.stages .publication), 0x0200 ≤ c.1 ∧ c.1 < 0x030F := by
    intro c hc
    simp only [State.stages] at hc
    split at hc
    · rename_i pub e
      simp only [Progress.written, hp, Publication.stages, writtenStages] at hc
      rcases List.mem_append.1 hc with hc | hc
      · simp only [List.mem_singleton] at hc; subst hc; simp
      · rcases List.mem_append.1 (List.mem_filter.1 hc).1 with hc | hc
        · have := mem_cellRun hc; rw [tableWords_length, htab pub e] at this; omega
        · have := mem_cellRun hc
          have h14 : pub.rev.summaryWords.length = 14 := by
            simp [Revolution.summaryWords, words32I, words32, zeroWords]
          rw [h14] at this; omega
    · simp [Progress.written, writtenStages] at hc
  have skip : ∀ {m : Memory} {cells : List (Nat × Word)} (a : Nat), a < Config.xmWords → (∀ c ∈ cells, c.1 ≠ a) →
      (m.writeAll cells).read a = m.read a := fun a ha h => Memory.read_writeAll_of_not_mem _ _ a ha h
  constructor
  · intro pub e
    constructor
    · unfold State.memoryAt
      rw [skip _ (by decide) fun c hc => by have := hC c hc; omega, skip _ (by decide) fun c hc => by have := hR c hc; omega]
      simp only [Progress.written, hp, State.stages, e, Publication.stages, writtenStages]
      rw [Memory.writeAll_append, skip _ (by decide)]
      · exact (Memory.read_write _ _ _ _ (by decide)).trans (if_pos rfl)
      · intro c hc
        rcases List.mem_append.1 (List.mem_filter.1 hc).1 with hc | hc
        · have := mem_cellRun hc; rw [tableWords_length, htab pub e] at this; omega
        · have := mem_cellRun hc; omega
    · unfold State.memoryAt
      rw [skip _ (by decide) fun c hc => by have := hC c hc; omega, skip _ (by decide) fun c hc => by have := hR c hc; omega,
        skip _ (by decide) fun c hc => by have := hP c hc; omega]
  · intro ws e
    constructor
    · unfold State.memoryAt
      rw [skip _ (by decide) fun c hc => by have := hC c hc; omega]
      match ws, hrep ws e with
      | w :: ws, hlen =>
        simp only [Progress.written, hr, State.stages, e, reportStages, writtenStages, cellRun, List.take_succ_cons, List.take_zero,
          List.drop_succ_cons, List.drop_zero, List.getElem?_cons_zero]
        rw [Memory.writeAll_append, skip _ (by decide)]
        · exact congrArg some ((Memory.read_write _ _ _ _ (by decide)).trans (if_pos rfl))
        · intro c hc
          have := mem_cellRun (List.mem_of_mem_take (List.mem_filter.1 hc).1); omega
    · unfold State.memoryAt
      rw [skip _ (by decide) fun c hc => by have := hC c hc; omega, skip _ (by decide) fun c hc => by have := hR c hc; omega,
        skip _ (by decide) fun c hc => by have := hP c hc; omega]
/-- A warm reset outside INIT leaves what R162 says. -/
theorem State.warmReset_spec (s : State) (initEnd : Option Nat) (h : s.startUp = .ready) :
    WarmResetLeaves initEnd s.resetLow s (s.warmReset initEnd) := by
  have hx : s.warmReset initEnd =
      { pending := s.pending, now := s.now, startUp := .initWarm, initEnd := initEnd, resetLow := s.resetLow
        freeIndex := s.freeIndex + 1, xm := emptyFilling s.rcu.capture s.cutMemory, pt := { startTime := s.now }
        tu := { nextIndex := s.tu.nextIndex, tripCount := s.tu.tripCount, extRaw := s.tu.extRaw } } := by
    unfold State.warmReset; rw [if_neg (by simp [h])]
  rw [hx]
  have kept : ∀ a < Config.xmWords, (∀ n, a ≠ slotStateOffset n) →
      (emptyFilling s.rcu.capture s.cutMemory).read a = (s.memoryAt (cutProgress s.freeIndex)).read a :=
    fun a ha hn => (read_emptyFilling _ _ a ha).1 hn
  have low : ∀ a < 0x1000, ∀ n : Fin 4, a ≠ slotStateOffset n := fun a ha n => by unfold slotStateOffset; omega
  refine ⟨⟨cutProgress s.freeIndex, rfl, rfl, fun a ha hn => ?_⟩, fun hl => ?_, fun n hc => ?_, rfl⟩
  · have e := kept a ha hn
    exact ⟨e, by rw [e]; exact s.read_memoryAt _ a ha⟩
  · simp only [kept 0x0300 (by decide) (low _ (by decide)), kept 0x030F (by decide) (low _ (by decide)),
      kept 0x0010 (by decide) (low _ (by decide)), kept 0x00FF (by decide) (low _ (by decide))]
    exact s.memoryAt_ends _ hl rfl rfl
  · have hlt := slotStateOffset_lt n
    have hcut : s.cutMemory.read (slotStateOffset n) = s.xm.read (slotStateOffset n) := by
      rcases s.read_memoryAt (cutProgress s.freeIndex) _ hlt with e | e
      · exact e
      · exact absurd rfl (hc _ e)
    show (emptyFilling s.rcu.capture s.cutMemory).read (slotStateOffset n) = _
    rw [(read_emptyFilling _ _ _ hlt).2 n rfl, hcut]
    rfl

end Sys2Proof.Machine
end

