-- ==== Sys2Proof/Laws/Step.lean ====
section
/-! SUPPORT. The cases of a step: a property that holds after every operation of the dispatch holds after every command, and one that
every command keeps is kept by every step. -/

namespace Sys2Proof.Machine

/-- Every command answers a next state. -/
theorem exec_next (c : Instr) (s : State) : ∃ t, exec c s = .next t := by cases c <;> exact ⟨_, rfl⟩

/-- The owner of the orders of a kind (9.5). -/
def OrderKind.owner : OrderKind → Order → State → State × OrderResult
  | .setLoop => ownSetLoop
  | .setLimits => ownSetLimits
  | .loadEnvelope => ownLoadEnvelope
  | .setShare => ownSetShare
  | .setReference => ownSetReference
  | .setSensor => ownSetSensor
  | .setWatch => ownSetWatch
  | .setPosition => ownSetPosition
  | .setReport => ownSetReport
  | .run => ownRun
  | .stop => ownStop
  | .tripReset => ownTripReset
  | .isolate => ownIsolate
  | .restore => ownRestore
  | .clearDerate => ownClearDerate
  | .testTrip => ownTestTrip
  | .injectLevel => ownInjectLevel
  | .transferCounts => ownTransferCounts

/-- The command of an order is its take-up by its owner (R167, R169). -/
theorem exec_command (k : OrderKind) (s : State) : exec k.command s = .next (takeUp k k.owner s) := by cases k <;> rfl

/-- A property holds after every command when it holds after each operation that a command can be. -/
theorem exec_cases {P : State → Prop} {c : Instr} {s t : State} (h : exec c s = .next t)
    (same : P s) (powerOn : P s.powerOn) (pinLow : P s.pinLow) (pinHigh : P s.pinHigh) (endInit : P s.endInit)
    (chainStart : ∀ w, P (s.writeChainStart w)) (control : ∀ w, P (s.writeControl w)) (notice : ∀ w, P (s.writeNotice w))
    (mask : ∀ w, P (s.writeMask w)) (memory : ∀ a w, P (s.writeMemory a w)) (formatFault : P s.takeUpFault)
    (orders : ∀ k : OrderKind, P (takeUp k k.owner s)) (truExpires : P s.truExpires) (breakAway : P s.breakAwayExpires)
    (stopHold : P s.stopHoldExpires) (speedWindow : P s.speedWindow)
    (quadrature : s.startUp = .ready → ∀ k, P { s with pt := s.pt.quadrature k s.now })
    (marker : s.startUp = .ready → P { s with pt := s.pt.marker s.now }) (publication : P s.completePublication)
    (linkFrame : ∀ ch f, P (s.linkFrame ch f)) (copy : P s.completeCopy) (synchronise : ∀ r, P (s.synchronise r))
    (breakDetected : ∀ ch, P (s.breakDetected ch)) (breakCleared : ∀ ch, P (s.breakCleared ch))
    (linkLoss : ∀ ch, P (s.linkLossExpires ch)) (transmit : ∀ ch, P (s.transmitCompletes ch))
    (sampleFrame : ∀ f, P (s.sampleFrame f)) (portLoss : P s.portLossExpires) (evaluation : P s.evaluationEnds)
    (external : ∀ l, P (s.externalChanges l)) (filter : P s.externalExpires) (reportTimer : P s.reportExpires)
    (report : P s.completeReport) : P t := by
  have hb : ∀ a w, P (s.busWrite a w) := by
    intro a w; unfold State.busWrite
    split
    · exact chainStart w
    · split
      · exact notice w
      · split
        · exact mask w
        · split
          · exact control w
          · exact memory _ w
  have hk : ∀ k : OrderKind, exec k.command s = .next t → P t := by
    intro k hk; rw [exec_command, Host.Outcome.next.injEq] at hk; rw [← hk]; exact orders k
  cases c
  case setLoop => exact hk .setLoop h
  case setLimits => exact hk .setLimits h
  case loadEnvelope => exact hk .loadEnvelope h
  case setShare => exact hk .setShare h
  case setReference => exact hk .setReference h
  case setSensor => exact hk .setSensor h
  case setWatch => exact hk .setWatch h
  case setPosition => exact hk .setPosition h
  case setReport => exact hk .setReport h
  case run => exact hk .run h
  case stop => exact hk .stop h
  case tripReset => exact hk .tripReset h
  case isolate => exact hk .isolate h
  case restore => exact hk .restore h
  case clearDerate => exact hk .clearDerate h
  case testTrip => exact hk .testTrip h
  case injectLevel => exact hk .injectLevel h
  case transferCounts => exact hk .transferCounts h
  all_goals
    simp only [exec,
      execPowerOn, execResetPin, execInitEnd, execChainStartWrite, execUrgentStop, execAbandonChain, execDeviceReset,
      execNoticeWrite, execNoticeMaskWrite, execRegisterWriteIgnored, execHostMemoryWrite, execSlotRelease,
      execOrderFormatFault, execTruPeriodExpiry, execBreakAwayExpiry, execStopHoldExpiry, execSpeedWindowExpiry,
      execQuadratureChange, execMarkerArrival, execPublicationCompletion, execLinkFrameCompletion,
      execRecordCopyCompletion, execReceiverSynchronised, execLinkBreakDetected, execBreakCleared, execLinkLossExpiry,
      execTransmitCompletion, execSampleFrameCompletion, execPortLossExpiry, execEvaluationEnd, execExtripInputChange,
      execExtripFilterExpiry, execReportTimerExpiry, execReportCompletion, execResetPinReturnsHigh, Host.Outcome.next.injEq] at h
    subst h
    try solve_by_elim
  · split
    · rename_i hr; exact quadrature hr.1 _
    · exact same
  · split
    · rename_i hr; exact marker hr
    · exact same

/-- A property that the taking of a command from the queue, a tick and every command keep is kept by every step. -/
theorem step_keeps {P : State → Prop} (queue : ∀ s rest, P s → P { s with pending := rest }) (tick : ∀ s : State, P s → P s.tick)
    (command : ∀ c s t, P s → exec c s = .next t → P t) {s t : State} (h : P s) (hs : step s = .next t) : P t := by
  unfold step at hs
  split at hs
  · injection hs with hs; subst hs; exact tick s h
  · exact command _ _ _ (queue _ _ h) hs

/-- A property is kept by a take-up when the owner's act keeps it and the walker's part keeps it. -/
theorem takeUp_keeps {P : State → Prop} {k : OrderKind} {owner : Order → State → State × OrderResult} {s : State} (h : P s)
    (act : P (owner s.recordOrder s.countRecord).1) (finish : ∀ u off hd r, P u → P (State.finishRecord u off hd r)) :
    P (takeUp k owner s) := by
  rcases takeUp_cases k owner s with e | e <;> rw [e]
  · exact h
  · exact finish _ _ _ _ act

end Sys2Proof.Machine
end

