-- ==== Sys2Proof/Tests/Slice0.lean ====
section
/-! SUPPORT. Tests: the well-formedness checks, the worked values of the spec, small steps, and for every statement with hypotheses a
state that meets them. -/

set_option maxRecDepth 4000

namespace Sys2Proof.Tests

open Sys2Proof.Machine

/-! ### States -/

/-- The state a command leaves. -/
def after (c : Instr) (s : State) : State :=
  match exec c s with
  | .next t => t
  | _ => s

/-- The part in READY, with nothing configured. -/
def ready : State := { State.reset with startUp := .ready, initEnd := none }

/-- The walker at a record at 0x0400, with the end mark. -/
def taking (k : OrderKind) (target : Target) (pars : List Nat) (s : State) : State :=
  { s with
    xm := s.xm.writeBlock 0x0400 (encodeHeader ⟨k.code, k.length, true, target⟩ :: 0 :: pars.map wordN)
    cw := { s.cw with walking := true } }

/-- A link that is UP and READY. -/
def upLink : Link :=
  { rx := .up, synced := true, goodRun := 4, lastSeq := some 7, lossTimer := some 900, ready := true, iavail := 32767 }

/-- READY and STOPPED, with all that RUN asks for. -/
def fit : State :=
  { ready with
    link := ⟨upLink, upLink⟩
    rc := { ready.rc with flags := ⟨true, true, true, true, true, true⟩ } }

/-- The drive RUNNING. -/
def running : State :=
  { fit with
    rc := { fit.rc with drive := .running, permit := true }
    reg := ⟨{ active := true }, { active := true }⟩
    tru := { fit.tru with timer := some 1000 } }

/-- The drive STARTING. -/
def starting : State := { running with rc := { running.rc with drive := .starting, breakAway := some 15000000 } }

/-- The drive STOPPING, with the stop-hold timer running. -/
def stopping : State := { running with rc := { running.rc with drive := .stopping, stopHold := some 2000000 } }

/-- The drive TRIPPED with the window OPEN at a count, the capture in slot 1. -/
def tripped (count : Nat) : State :=
  { ready with
    xm := [(slotStateOffset 1, 1)]
    rc := { ready.rc with drive := .tripped }
    tru := { ready.tru with timer := some 1000 }
    tu := { ready.tu with
      latched := [.test], firstOut := some .test, window := some count, causeList := [.test], openEntry := some 0
      nextIndex := 1, tripCount := 1 }
    rcu := { ready.rcu with capture := some 1, preCount := 96, postCount := count } }

/-! ### Well-formedness -/

theorem test_wf_urgentStop : Instr.wf (.urgentStop 2) = false ∧ Instr.wf (.urgentStop 5) = false ∧ Instr.wf (.urgentStop 3) = true := by
  decide

theorem test_wf_abandonChain : Instr.wf (.abandonChain 3) = false ∧ Instr.wf (.abandonChain 6) = false ∧
    Instr.wf (.abandonChain 1) = false ∧ Instr.wf (.abandonChain 2) = true := by
  decide

theorem test_wf_deviceReset : Instr.wf (.deviceReset 3) = false ∧ Instr.wf (.deviceReset 7) = true := by decide

theorem test_wf_registerWriteIgnored : Instr.wf (.registerWriteIgnored 0x3FF8 0) = false ∧
    Instr.wf (.registerWriteIgnored 0x3FFC 1) = false ∧ Instr.wf (.registerWriteIgnored 0x3FFC 0xFFF8) = true := by
  decide

theorem test_wf_hostMemoryWrite : Instr.wf (.hostMemoryWrite 0x3FFD 0) = false ∧
    Instr.wf (.hostMemoryWrite 0x1000 3) = false ∧ Instr.wf (.hostMemoryWrite 0x3FFE 0) = true := by
  decide

theorem test_wf_linkFrame : Instr.wf (.linkFrameCompletion .a []) = false := by decide

theorem test_wf_sampleFrame : Instr.wf (.sampleFrameCompletion []) = false := by decide

/-! ### The table's words and the spec's worked values -/

/-- The table gives no row any bits: no word spells a command. -/
theorem test_no_word_spells_a_command : decodeTableWord 16 0x16C1 = none := by decide

/-- 11.2: the check of the nine bytes is 0x29B1, and of no bytes 0xFFFF. -/
theorem test_check_of_eleven_two :
    crc16 [0x31, 0x32, 0x33, 0x34, 0x35, 0x36, 0x37, 0x38, 0x39] = 0x29B1#16 ∧ crc16 [] = 0xFFFF#16 := by
  decide

/-- R73, R186: a RUN frame of sequence 17 and Vcmd -2, and a BLOCK frame of sequence 0: their first four bytes, and a check that takes
the register over the whole frame to 0, as a remainder does. -/
theorem test_command_frame_of_eleven_two :
    let run := Command.bytes ⟨true, -2⟩ 17
    let block := Command.bytes blockCommand 0
    run.take 4 = [0x11, 0x01, 0xFE, 0xFF] ∧ block.take 4 = [0, 0, 0, 0] ∧ run.length = 6 ∧ crc16 run = 0 ∧ crc16 block = 0 := by
  decide

/-- 11.2: sequence 17, READY, Imeas 3900 and Iavail 8000. -/
theorem test_measure_of_eleven_two :
    decodeMeasure [0x11, 0x01, 0x3C, 0x0F, 0x40, 0x1F] = ⟨17, true, false, 3900, 8000⟩ := by
  decide

/-- 11.4: the headers of SET LOOP with target PAIR and of RUN with the end mark. -/
theorem test_headers_of_eleven_four :
    encodeHeader ⟨1, 5, false, .pair⟩ = 0x16C1#16 ∧ encodeHeader ⟨10, 2, true, .sensor 0⟩ = 0x880A#16 ∧
      decodeHeader 0x16C1#16 = ⟨1, 5, false, .pair⟩ ∧ decodeHeader 0x880A#16 = ⟨10, 2, true, .sensor 0⟩ := by
  decide

/-- R48: Kp 1024 and an error of -3 give floor(-11.5), -12. -/
theorem test_proportional_of_three_four : Regulator.proportional {} (-3) = -12 := by decide

/-- R111: N 256 and a sum of squares of 318,767,104 give 1115. -/
theorem test_rms_of_six_five : Latched.rms ⟨0, 256, 318767104, 0, false, false, false⟩ = 1115 := by decide

/-- 5.6: the largest Tmax of 5400 in sectors 11 and 12 and the least Tmin of 3900 in sector 27 make a pulsation of 1500. -/
theorem test_summary_of_five_six :
    let entry : Int → Int → WorkEntry := fun hi lo => { count := 1, tmax := some hi, tmin := some lo }
    let table := List.replicate 11 (entry 5000 4000) ++ [entry 5400 4000, entry 5400 4000] ++
      List.replicate 14 (entry 5000 4000) ++ [entry 5000 3900] ++ List.replicate 4 (entry 5000 4000)
    maxSector 0 table = some (5400, 11) ∧ minSector 0 table = some (3900, 27) := by
  decide

/-- 11.6: after power-on STATE reads 0x2003: READY, STOPPED, position UNCERTAIN. -/
theorem test_state_word_after_init : (after .initEnd State.reset).hostRead 0x3FFD = 0x2003#16 := by decide

/-- Assumption 3: with an empty queue a step is one tick of 1 µs. -/
theorem test_empty_queue_ticks : step ready = .next { ready with now := 1 } := by rfl

/-! ### Witnesses: states that meet the hypotheses of each statement -/

theorem witness_StepRunsTheFrontCommand :
    State.pending { ready with pending := [.run, .stop] } = Instr.run :: [.stop] := by
  decide

theorem witness_StepKeepsMemoryCanonical : ∃ t, (tripped 3).xm.wf ∧ step (tripped 3) = .next t := ⟨_, by decide, rfl⟩

theorem running_runInv : running.RunInv :=
  ⟨rfl, rfl, fun ch => by cases ch <;> rfl, fun ch => by cases ch <;> decide, by decide, by decide, by decide, rfl⟩

theorem stopping_runInv : stopping.RunInv :=
  ⟨rfl, rfl, fun ch => by cases ch <;> rfl, fun ch => by cases ch <;> decide, by decide, by decide, by decide, rfl⟩

theorem witness_StepKeepsRunControl :
    (∃ t, running.RunInv ∧ step running = .next t) ∧ ∃ t, stopping.RunInv ∧ step stopping = .next t :=
  ⟨⟨_, running_runInv, rfl⟩, ⟨_, stopping_runInv, rfl⟩⟩

theorem tripped_tripInv (n : Nat) (h : n ≤ 23) : (tripped n).TripInv := by
  simp [State.TripInv, tripped, h]

theorem witness_StepKeepsTripUnit :
    (∃ t, (tripped 23).TripInv ∧ step { tripped 23 with pending := [.truPeriodExpiry] } = .next t) ∧
    ∃ t, (tripped 0).TripInv ∧ step (tripped 0) = .next t :=
  ⟨⟨_, tripped_tripInv 23 (by decide), rfl⟩, ⟨_, tripped_tripInv 0 (by decide), rfl⟩⟩

theorem witness_StepKeepsTorque : ∃ t, stopping.TorqueInv ∧ step stopping = .next t :=
  ⟨_, ⟨stopping_runInv, fun ch => by cases ch <;> decide, rfl, fun _ => rfl, by decide, fun _ => rfl, by decide⟩, rfl⟩

/-- RUNNING with the port LOST: derate with reason BLIND. -/
def blind : State := { running with vw := { running.vw with rx := .lost, derate := .blind } }

theorem witness_StepKeepsBlindDerate : ∃ t, blind.BlindInv ∧ step blind = .next t :=
  ⟨_, ⟨fun _ _ => rfl, by decide⟩, rfl⟩

theorem witness_StepKeepsPosition : ∃ t, ready.PositionInv ∧ step ready = .next t :=
  ⟨_, ⟨by decide, by decide, by decide, by decide, rfl, by decide, by decide, rfl,
    fun e he => by rw [(List.mem_replicate.1 he).2]; simp [WorkEntry.Ok], fun _ => rfl⟩, rfl⟩

/-- The port UP, channel 0 enabled with a full block under evaluation and two frames waiting. -/
def evaluating : State :=
  { running with vw := { running.vw with
      rx := .up, synced := true, lossTimer := some 1600, goodRun := 4, lastSeq := some 255
      channels := running.vw.channels.set 0 { level := .quiet, tripEnable := true }
      fifo := [⟨0, Octet.build fun _ => 0⟩, ⟨0, Octet.build fun _ => 5⟩]
      evaluation := some ⟨20, [⟨0, 1024, 1024 * 16777216, 4096, false, false, false⟩]⟩ } }

theorem witness_StepKeepsVibrationWatch : ∃ t, evaluating.WatchInv ∧ step evaluating = .next t := by
  refine ⟨_, ⟨by decide, fun h => by simp [evaluating] at h, by decide, fun _ => rfl, ?_, by decide, ?_, ?_⟩, rfl⟩
  · intro q hq; simp [evaluating] at hq; omega
  · intro i; fin_cases i <;> simp [evaluating, running, fit, ready, State.reset, Octet.set, Octet.build, Octet.get, SensorChannel.Ok]
  · intro e he l hl
    simp only [evaluating, Option.some.injEq] at he
    subst he
    simp only [List.mem_singleton] at hl
    subst hl
    exact ⟨by decide, fun _ => by decide⟩

theorem witness_StepKeepsLinks : ∃ t, running.LinkInv ∧ step running = .next t := by
  refine ⟨_, fun ch => ?_, rfl⟩
  cases ch <;> simp [running, fit, ready, upLink, State.reset, Pair.get, linkOk]

theorem tripped_slotInv (n : Nat) (h : n ≤ 23) : (tripped n).SlotInv := by
  refine ⟨tripped_tripInv n h, ?_, by decide +revert⟩
  simp [State.LayoutInv, tripped, ready, State.reset]

/-- RUNNING, with one snapshot in the ring and slot 0 READY. -/
def sampled : State :=
  { running with
    xm := running.xm.write 0x1000 2
    tru := { running.tru with snapNumber := 1 }
    rcu := { running.rcu with ring := [(0, { running.snapshot with number := 1 })], fillCount := 1 } }

theorem sampled_ringInv : sampled.RingInv := by
  refine ⟨by decide, by decide, fun i hi => ?_⟩
  rcases i with _ | i
  · exact ⟨_, rfl, rfl⟩
  · rw [if_neg (by simp [sampled])]
    have h : ¬0 = (65535 - i) % 256 := by omega
    simp [ringAt, sampled, h]

theorem witness_StepKeepsSlots :
    (∃ t, (tripped 23).SlotInv ∧ step (tripped 23) = .next t) ∧
    ∃ t, sampled.RingInv ∧ step { sampled with pending := [.truPeriodExpiry] } = .next t :=
  ⟨⟨_, tripped_slotInv 23 (by decide), rfl⟩, ⟨_, sampled_ringInv, rfl⟩⟩

theorem witness_StepKeepsInitQuiet : ∃ t, State.reset.startUp ≠ .ready ∧ ready.InitInv ∧ step ready = .next t :=
  ⟨_, by decide, fun h => absurd rfl h, rfl⟩

theorem witness_DriveStateMovesByTheTable :
    (∃ t, exec (.urgentStop 1) running = .next t ∧ Instr.wf (.urgentStop 1) = true ∧ t.rc.drive ≠ running.rc.drive) ∧
    (∃ t, exec .run (taking .run .noTarget [] fit) = .next t ∧ t.rc.drive ≠ fit.rc.drive) ∧
    (∃ t, exec .speedWindowExpiry { starting with pt := { starting.pt with timer := some 1, nw := 41 } } = .next t ∧
      t.rc.drive ≠ starting.rc.drive) ∧
    (∃ t, exec .stop (taking .stop .noTarget [] running) = .next t ∧ t.rc.drive ≠ running.rc.drive) ∧
    (∃ t, exec .stopHoldExpiry stopping = .next t ∧ t.rc.drive ≠ stopping.rc.drive) ∧
    (∃ t, exec .tripReset (taking .tripReset .noTarget [] { tripped 0 with tu := { (tripped 0).tu with window := none } }) = .next t ∧
      t.rc.drive ≠ (tripped 0).rc.drive) ∧
    (∃ t, exec (.deviceReset 4) running = .next t ∧ Instr.wf (.deviceReset 4) = true ∧ t.rc.drive ≠ running.rc.drive) := by
  refine ⟨⟨_, rfl, ?_, ?_⟩, ⟨_, rfl, ?_⟩, ⟨_, rfl, ?_⟩, ⟨_, rfl, ?_⟩, ⟨_, rfl, ?_⟩, ⟨_, rfl, ?_⟩, ⟨_, rfl, ?_, ?_⟩⟩ <;> decide

/-- TRIPPED, with the walker at a record at 0x0FFE: its result word is the last word of the chain region. -/
def trippedWalk : State := { tripped 0 with cw := { (tripped 0).cw with walking := true, nextOffset := 0x0FFE } }

theorem witness_PartWritesNoHostWord :
    trippedWalk.SlotInv ∧ Instr.wf .stop = true ∧ (∃ t, exec .stop trippedWalk = .next t) ∧
    (∀ address v, Instr.stop ≠ .hostMemoryWrite address v) ∧ Instr.stop ≠ .powerOn ∧
    (0x000F ≤ 0x000F) ∧ ¬(TakesUp .stop ∧ trippedWalk.cw.walking = true ∧ 0x0310 = trippedWalk.cw.nextOffset + 1) ∧
    ¬(TakesUp .stop ∧ trippedWalk.cw.walking = true ∧ 0x0FFE = trippedWalk.cw.nextOffset + 1) ∧
    ¬(TakesUp (.urgentStop 1) ∧ trippedWalk.cw.walking = true ∧ 0x0FFF = trippedWalk.cw.nextOffset + 1) := by
  refine ⟨⟨tripped_tripInv 0 (by decide), ?_, by decide⟩, by decide, ⟨_, rfl⟩, fun _ _ h => by simp at h, by decide, le_refl _,
    fun h => absurd h.2 (by decide), fun h => absurd h.2 (by decide), ?_⟩
  on_goal 2 =>
    rintro ⟨⟨k, hk⟩ | hk, -⟩
    · cases k <;> cases hk
    · cases hk
  simp [State.LayoutInv, trippedWalk, tripped, ready, State.reset]

theorem witness_PowerOnAndTheEndOfInit :
    ready.startUp = .ready ∧ (State.reset.startUp ≠ .ready ∧ State.reset.resetLow = false ∧ State.reset.initEnd = some 2000) ∧
    (let held := after .resetPin running; held.startUp ≠ .ready ∧ held.resetLow = true ∧ held.initEnd = none) ∧
    (let held := after .resetPin State.reset; held.startUp ≠ .ready ∧ held.resetLow = true ∧ held.initEnd = some 2000) := by
  decide

theorem witness_WarmResetsLeaveResetValues :
    (running.startUp = .ready ∧ running.resetLow = false) ∧ (running.startUp = .ready ∧ (4 : Word).getLsbD 2 = true) ∧
    (let held := after .resetPin running; held.startUp = .initWarm ∧ held.resetLow = true) ∧
    State.reset.startUp ≠ .ready ∧
    (let held := after .resetPin State.reset
     held.startUp = .initPowerOn ∧ held.resetLow = true ∧ held.initEnd = some 2000 ∧ ¬ 2000 ≤ held.now ∧
       2000 ≤ { held with now := 2000 }.now) := by
  decide

theorem witness_WalkerWritesStartAndEndWalks :
    (ready.startUp = .ready ∧ (0x0400 ≤ (0x0400 : Word).toNat ∧ (0x0FFF : Word).toNat ≤ 0x0FFF)) ∧
    (running.startUp = .ready ∧ (1 : Word).getLsbD 0 = true ∧ (1 : Word).getLsbD 2 = false) ∧
    (running.startUp = .ready ∧ (2 : Word).getLsbD 1 = true ∧ (2 : Word).getLsbD 0 = false ∧ (2 : Word).getLsbD 2 = false) := by
  decide

theorem witness_NoticeWritesClearAndMask :
    (ready.startUp = .ready ∧ ready.cw.orderIndex ≤ 65) ∧ (∀ c ∈ ready.cellsInFlight, c.1 ≠ (0x2FFF : Addr).toNat) ∧
    (0x2FFF : Addr).toNat < Config.xmWords ∧
    (0x3000 ≤ (0x3000 : Addr).toNat ∧ (0x3FF7 : Addr).toNat ≤ 0x3FF7) ∧ 0x3FFE ≤ (0x3FFE : Addr).toNat := by
  decide

theorem witness_HostWritesStoreOnlyTheirWord :
    ready.startUp ≠ .initPowerOn ∧ isRegister (0x000F : Addr).toNat = false ∧ isRegister (0x0310 : Addr).toNat = false ∧
    isRegister (0x0FFF : Addr).toNat = false ∧ isRegister (0x2800 : Addr).toNat = false ∧
    isRegister (0x3FF7 : Addr).toNat = false ∧ isRegister (0x3FFE : Addr).toNat = false ∧
    (0x3FF9 : Addr).toNat = 0x3FF9 ∧ (0x3FFD : Addr).toNat = 0x3FFD ∧
    ((0x3FFC : Addr).toNat = 0x3FFC ∧ ∀ i < 3, (0xFFF8 : Word).getLsbD i = false) := by
  decide

theorem witness_InitIgnoresTheOutside :
    State.reset.startUp ≠ .ready ∧ State.reset.startUp = .initPowerOn ∧
    ((after .resetPin running).startUp = .initWarm ∧ (0x2FFF : Addr).toNat < Config.xmWords) ∧
    isRegister (0x3FF8 : Addr).toNat = true ∧
    isRegister (0x3FFD : Addr).toNat = true ∧ isRegister (0x3FF7 : Addr).toNat = false := by
  decide

/-- A record that fails each of the five checks of R168. -/
def badRecord (index offset header : Nat) : State :=
  { ready with xm := [(offset, wordN header)], cw := { ready.cw with walking := true, orderIndex := index, nextOffset := offset } }

theorem witness_FormatFaultEndsTheWalk :
    ((badRecord 64 0x0400 0x080A).cw.walking = true ∧ (badRecord 64 0x0400 0x080A).formatDetail 4) ∧
    (badRecord 0 0x1000 0x080A).formatDetail 3 ∧ (badRecord 0 0x0400 0x0800).formatDetail 1 ∧
    (badRecord 0 0x0400 0x0813).formatDetail 1 ∧ (badRecord 0 0x0400 0x0C0A).formatDetail 2 ∧
    (badRecord 63 0x0FFF 0x080A).formatDetail 3 := by
  simp only [State.formatDetail]; decide

theorem witness_RefusedOrderChangesNothingElse :
    (taking .tripReset .noTarget [] (tripped 23)).RecordReady .tripReset ∧
    (∀ n, (taking .tripReset .noTarget [] (tripped 23)).tu.window = some n → n ≤ 23) ∧
    (taking .setWatch .noTarget [256] ready).RecordReady .setWatch := by
  refine ⟨by decide, fun n h => ?_, by decide⟩
  have : (taking .tripReset .noTarget [] (tripped 23)).tu.window = some 23 := rfl
  rw [this] at h; injection h; omega

/-- SET WATCH with every parameter at an end of its range. -/
def watchOrder (n : Nat) : State := taking .setWatch .noTarget [n, 1000, 1000, 1, 65535, 1, 4096, 16, 2000] running

theorem witness_TargetThenFirstBadParameterRefuses :
    ((taking .setLoop .all [0, 0, 0] ready).RecordReady .setLoop ∧
      ¬targetTaken .setLoop (taking .setLoop .all [0, 0, 0] ready).targetCode) ∧
    ((taking .injectLevel .all [0, 1] ready).RecordReady .injectLevel ∧
      ¬targetTaken .injectLevel (taking .injectLevel .all [0, 1] ready).targetCode) ∧
    (let s := taking .setLimits .pair [32767, 32767, 32767, 32767, 0] ready
     s.RecordReady .setLimits ∧ targetTaken .setLimits s.targetCode ∧
       (s.parameterChecks .setLimits)[4]? = some (1 ≤ s.par 4 ∧ s.par 4 ≤ 32767) ∧ ¬(1 ≤ s.par 4 ∧ s.par 4 ≤ 32767) ∧
       ∀ q ∈ (s.parameterChecks .setLimits).take 4, q) ∧
    (let s := taking .setShare .noTarget [4097, 0, 1] ready
     s.RecordReady .setShare ∧ targetTaken .setShare s.targetCode ∧
       (s.parameterChecks .setShare)[0]? = some (s.par 0 ≤ 4096) ∧ ¬s.par 0 ≤ 4096 ∧
       ∀ q ∈ (s.parameterChecks .setShare).take 0, q) := by
  refine ⟨⟨by decide, by simp only [targetTaken]; decide⟩, ⟨by decide, by simp only [targetTaken]; decide⟩,
    ⟨by decide, by simp only [targetTaken]; decide, rfl, by decide, ?_⟩, ⟨by decide, trivial, rfl, by decide, ?_⟩⟩
  · simp only [State.parameterChecks, List.take_succ_cons, List.take_zero, List.forall_mem_cons]
    exact ⟨by decide, by decide, by decide, by decide, fun _ h => absurd h (by simp)⟩
  · simp

theorem witness_LoopAndLimitsOrdersActOnTargets :
    (∀ ch : Fin 2,
      let s := taking .setLoop (.chan (if ch = 0 then .a else .b)) [65535, 0, 16384] running
      s.RecordReady .setLoop ∧ 9 ≤ s.targetCode ∧ s.targetCode ≤ 11 ∧ s.par 2 ≤ 16384) ∧
    (let s := taking .setLimits .pair [32767, 0, 32767, 0, 32767] running
     s.RecordReady .setLimits ∧ (9 ≤ s.targetCode ∧ s.targetCode ≤ 11) ∧ (∀ i < 4, s.par i ≤ 32767) ∧
        1 ≤ s.par 4 ∧ s.par 4 ≤ 32767) := by
  decide

/-- LOAD ENVELOPE of eight breakpoints. -/
def envelopeOrder (n : Nat) (third : Nat) : State :=
  taking .loadEnvelope .noTarget
    [n, 0, 32767, 10, 4000, third, 3000, 30, 2000, 40, 1000, 50, 500, 60, 100, 32767, 0, 0] running

theorem witness_LoadEnvelopeReplacesOrRefuses :
    (envelopeOrder 8 20).RecordReady .loadEnvelope ∧
    (let s := envelopeOrder 8 20
     2 ≤ s.par 0 ∧ s.par 0 ≤ 8 ∧ ∀ i < 8, s.par (1 + 2 * i) ≤ 32767 ∧ s.par (2 + 2 * i) ≤ 32767 ∧
       (0 < i → s.par (1 + 2 * (i - 1)) < s.par (1 + 2 * i))) ∧
    (let s := envelopeOrder 3 10
     s.RecordReady .loadEnvelope ∧ 2 ≤ s.par 0 ∧ s.par 0 ≤ 8 ∧ ¬(0 < 2 → s.par (1 + 2 * (2 - 1)) < s.par (1 + 2 * 2))) ∧
    (let s := envelopeOrder 9 20; s.RecordReady .loadEnvelope ∧ ¬(2 ≤ s.par 0 ∧ s.par 0 ≤ 8)) ∧
    (let s := envelopeOrder 1 20; s.RecordReady .loadEnvelope ∧ ¬(2 ≤ s.par 0 ∧ s.par 0 ≤ 8)) := by
  decide

theorem witness_ScalarOrdersReplaceTheirValues :
    (let s := taking .setShare .noTarget [4096, 0, 10000] running
     s.RecordReady .setShare ∧ ∀ p ∈ s.parameterChecks .setShare, p) ∧
    (let s := taking .setReference .noTarget [4000, 8192, 1, 1000, 0] running
     s.RecordReady .setReference ∧ ∀ p ∈ s.parameterChecks .setReference, p) ∧
    (let s := taking .setReport .noTarget [10000, 1, 0, 1, 200] running
     s.RecordReady .setReport ∧ ∀ p ∈ s.parameterChecks .setReport, p) := by
  refine ⟨⟨by decide, ?_⟩, ⟨by decide, ?_⟩, ⟨by decide, ?_⟩⟩ <;>
    (simp only [State.parameterChecks, List.forall_mem_cons, List.not_mem_nil, false_imp_iff, implies_true, and_true]; decide)

theorem witness_WatchAndPositionOrdersRestart :
    ((watchOrder 256).RecordReady .setWatch ∧ ∀ p ∈ (watchOrder 256).parameterChecks .setWatch, p) ∧
    ((watchOrder 2048).RecordReady .setWatch ∧ ∀ p ∈ (watchOrder 2048).parameterChecks .setWatch, p) ∧
    (let s := taking .setPosition .noTarget [64, 8, 1000, 65535, 1, 60, 100] running
     s.RecordReady .setPosition ∧ ∀ p ∈ s.parameterChecks .setPosition, p) := by
  refine ⟨⟨by decide, ?_⟩, ⟨by decide, ?_⟩, ⟨by decide, ?_⟩⟩ <;>
    (simp only [State.parameterChecks, List.forall_mem_cons, List.not_mem_nil, false_imp_iff, implies_true, and_true]; decide)

theorem witness_SetSensorActsOnItsTargets :
    (let s := taking .setSensor .all [0, 1, 0, 1, 32767, 1] running
     s.RecordReady .setSensor ∧ s.targetCode ≤ 8 ∧ ∀ p ∈ s.parameterChecks .setSensor, p) ∧
    (let s := taking .setSensor (.sensor 0) [1, 0, 32766, 32767, 0, 0] running
     s.RecordReady .setSensor ∧ s.targetCode ≤ 8 ∧ ∀ p ∈ s.parameterChecks .setSensor, p) := by
  refine ⟨⟨by decide, by decide, ?_⟩, ⟨by decide, by decide, ?_⟩⟩ <;>
    (simp only [State.parameterChecks, List.forall_mem_cons, List.not_mem_nil, false_imp_iff, implies_true, and_true]; decide)

theorem witness_RunStartsTheDrive :
    let s := taking .run .noTarget [] fit
    s.RecordReady .run ∧ s.rc.drive = .stopped ∧
    (s.rc.isolated.a = false → s.rc.flags.loopA = true ∧ s.rc.flags.limitsA = true) ∧
    (s.rc.isolated.b = false → s.rc.flags.loopB = true ∧ s.rc.flags.limitsB = true) ∧ s.rc.flags.envelope = true ∧
    s.rc.flags.position = true ∧
    (∀ ch, s.rc.isolated.get ch = false →
      (s.link.get ch).rx = .up ∧ (s.link.get ch).ready = true ∧ (s.link.get ch).fault = false ∧
        (s.link.get ch).breakHeld = false) ∧
    ∀ i, (s.vw.channels.get i).injection = none :=
  ⟨by decide, by decide, by decide, by decide, by decide, by decide, fun ch => by cases ch <;> decide, by decide⟩

theorem witness_RunRefusedAtItsFirstCheck :
    (taking .run .noTarget [] running).RecordReady .run ∧ running.rc.drive ≠ .stopped ∧
    (taking .run .noTarget [] ready).RecordReady .run ∧ ready.rc.flags.loopA = false ∧
    (let s := { fit with link := ⟨upLink, { upLink with rx := .lost }⟩ }
     (taking .run .noTarget [] s).RecordReady .run ∧ s.rc.drive = .stopped ∧ (s.link.get .b).rx ≠ .up) ∧
    (let s := { fit with vw := { fit.vw with channels := fit.vw.channels.set 7 { level := .quiet, injection := some ⟨1, 1⟩ } } }
     (taking .run .noTarget [] s).RecordReady .run ∧ (s.vw.channels.get 7).injection ≠ none) := by
  decide

theorem witness_StopByDriveState :
    ((taking .stop .noTarget [] running).RecordReady .stop ∧ running.rc.drive = .running ∧ running.rc.stopHold = none) ∧
    ((taking .stop .noTarget [] starting).RecordReady .stop ∧ starting.rc.drive = .starting ∧ starting.rc.stopHold = none) ∧
    ((taking .stop .noTarget [] stopping).RecordReady .stop ∧ stopping.rc.drive = .stopping) ∧
    ((taking .stop .noTarget [] ready).RecordReady .stop ∧ ready.rc.drive = .stopped) ∧
    ((taking .stop .noTarget [] (tripped 0)).RecordReady .stop ∧ (tripped 0).rc.drive = .tripped) := by
  decide

/-- TRIPPED with the window CLOSED and the latched causes given. -/
def closed (latched : List Cause) : State :=
  { tripped 0 with tu := { (tripped 0).tu with latched := latched, window := none, openEntry := none, extFiltered := true } }

theorem witness_TripResetByItsChecks :
    (let s := taking .tripReset .noTarget [] (closed [.test, .stall])
     s.RecordReady .tripReset ∧ s.rc.drive = .tripped ∧ s.tu.window = none ∧ ∀ c ∈ s.tu.latched, ¬s.ActiveCause c) ∧
    ((taking .tripReset .noTarget [] ready).RecordReady .tripReset ∧ ready.rc.drive ≠ .tripped) ∧
    ((taking .tripReset .noTarget [] (tripped 23)).RecordReady .tripReset ∧ (tripped 23).tu.window = some 23 ∧ 23 ≤ 23) ∧
    (let s := taking .tripReset .noTarget [] (closed [.linkLoss .a, .externalTrip])
     s.RecordReady .tripReset ∧ s.tu.window = none ∧ Cause.externalTrip ∈ s.tu.latched ∧ s.ActiveCause .externalTrip ∧
       ∀ d ∈ s.tu.latched, s.ActiveCause d → Cause.externalTrip.code ≤ d.code) := by
  refine ⟨⟨by decide, by decide, by decide, fun c hc => ?_⟩, by decide, by decide, ⟨by decide, by decide, by decide, rfl, ?_⟩⟩
  · have : c = .test ∨ c = .stall := by simpa [taking, closed] using hc
    rcases this with rfl | rfl <;> exact id
  · intro d hd _
    have : d = .linkLoss .a ∨ d = .externalTrip := by simpa [taking, closed] using hd
    rcases this with rfl | rfl <;> decide

theorem witness_IsolateAndRestoreSetTheFlag :
    (let s := taking .isolate (.chan .a) [] fit
     s.targetCode = 9 + chanIndex .a ∧ s.RecordReady .isolate ∧ s.rc.drive = .stopped ∧ s.rc.isolated.get (otherChan .a) = false) ∧
    (let s := taking .isolate (.chan .b) [] { fit with rc := { fit.rc with isolated := ⟨true, false⟩ } }
     s.targetCode = 9 + chanIndex .b ∧ s.RecordReady .isolate ∧ s.rc.drive = .stopped ∧ s.rc.isolated.get (otherChan .b) = true) ∧
    (let s := taking .restore (.chan .b) [] running
     s.targetCode = 9 + chanIndex .b ∧ s.RecordReady .restore ∧ s.rc.drive ≠ .stopped) ∧
    (let s := taking .restore (.chan .a) [] { fit with rc := { fit.rc with isolated := ⟨true, false⟩ } }
     s.targetCode = 9 + chanIndex .a ∧ s.RecordReady .restore ∧ s.rc.drive = .stopped) := by
  decide

/-- Derate established with reason ALERT, the port in a state and channel 7 at a level. -/
def derated (rx : RxState) (level : Level) : State :=
  { running with vw := { running.vw with rx := rx, derate := .alert, channels := running.vw.channels.set 7 { level := level } } }

theorem witness_ClearDerateUnderTheQuietCondition :
    ((taking .clearDerate .noTarget [] running).RecordReady .clearDerate ∧ running.vw.derate = .none) ∧
    (let s := taking .clearDerate .noTarget [] (derated .up .quiet)
     s.RecordReady .clearDerate ∧ s.vw.derate ≠ .none ∧ s.vw.rx = .up ∧
       ∀ i, ¬((s.vw.channels.get i).level ≠ .disabled ∧ (s.vw.channels.get i).level ≠ .quiet)) ∧
    (let s := taking .clearDerate .noTarget [] (derated .down .quiet)
     s.RecordReady .clearDerate ∧ s.vw.derate ≠ .none ∧ s.vw.rx ≠ .up) ∧
    (let s := taking .clearDerate .noTarget [] (derated .up .fault)
     s.RecordReady .clearDerate ∧ s.vw.derate ≠ .none ∧ s.vw.rx = .up ∧ (s.vw.channels.get 7).level = .fault ∧
       ∀ j < 7, ¬((s.vw.channels.get j).level ≠ .disabled ∧ (s.vw.channels.get j).level ≠ .quiet)) := by
  decide

/-- INJECT LEVEL on channel 7 with a value and a count. -/
def injectOrder (level : Level) (value count : Nat) : State :=
  taking .injectLevel (.sensor 7) [value, count] { fit with vw := { fit.vw with channels := fit.vw.channels.set 7 { level := level } } }

theorem witness_TestOrdersActInStopped :
    ((taking .testTrip .noTarget [] fit).RecordReady .testTrip ∧ fit.rc.drive = .stopped) ∧
    ((taking .testTrip .noTarget [] running).RecordReady .testTrip ∧ running.rc.drive ≠ .stopped) ∧
    (let s := injectOrder .quiet 32767 255
     s.RecordReady .injectLevel ∧ s.targetCode = 7 ∧ s.rc.drive = .stopped ∧ (s.vw.channels.get 7).level ≠ .disabled ∧
       s.par 0 ≤ 32767 ∧ 1 ≤ s.par 1 ∧ s.par 1 ≤ 255) ∧
    (let s := injectOrder .disabled 0 1; s.RecordReady .injectLevel ∧ (s.vw.channels.get 7).level = .disabled) ∧
    (let s := injectOrder .quiet 32768 1; s.RecordReady .injectLevel ∧ 32767 < s.par 0) ∧
    (let s := injectOrder .quiet 0 256; s.RecordReady .injectLevel ∧ ¬(1 ≤ s.par 1 ∧ s.par 1 ≤ 255)) ∧
    (let s := taking .injectLevel (.sensor 0) [0, 1] running; s.RecordReady .injectLevel ∧ s.rc.drive ≠ .stopped) := by
  decide

theorem witness_TransfersAndReportRequests :
    (taking .transferCounts .noTarget [] running).RecordReady .transferCounts ∧
    (∃ due, (after .initEnd State.reset).rn.timer = some due ∧ (after .initEnd State.reset).rn.manual = false) ∧
    { running.rn with timer := some 1000000, manual := true }.manual = true :=
  ⟨by decide, ⟨_, rfl, rfl⟩, rfl⟩

theorem witness_RunControlTimersExpire :
    (starting.rc.breakAway = some 15000000 ∧ starting.rc.drive = .starting) ∧
    (stopping.rc.stopHold = some 2000000 ∧ stopping.rc.drive = .stopping) := by
  decide

/-- RUNNING, with the speed window about to end, and a full circle of 64 pulses counted as far as Pc. -/
def turning (pc : Nat) : State :=
  { running with pt := { running.pt with
      p := 64, tol := 8, pc := pc, sector := pc * 32 / 64, lastComb := some 3, nw := 41, timer := some 100000, wrapped := true } }

theorem witness_SpeedWindowMeasuresAndInforms : (turning 0).pt.timer = some 100000 := by decide

theorem witness_QuadratureCountsTheSource :
    Chan.b ≠ running.pt.source ∧ (running.startUp = .ready ∧ running.pt.lastComb = none) ∧
    ((turning 63).startUp = .ready ∧ (turning 63).pt.lastComb = some 3 ∧ (turning 63).pt.pc + 1 = (turning 63).pt.p) ∧
    ((turning 8).pt.lastComb = some 3 ∧ (turning 8).pt.wrapped = true ∧ (turning 8).pt.pc + 1 = (turning 8).pt.tol + 1) := by
  decide

theorem witness_MarkerIsARevolutionBoundary :
    ((turning 8).startUp = .ready ∧ (turning 8).pt.tol ≤ (turning 8).pt.p ∧ (turning 8).pt.pc < (turning 8).pt.p ∧
      (turning 8).pt.pc ≤ (turning 8).pt.tol) ∧
    ((turning 56).pt.pc < (turning 56).pt.p ∧ (turning 56).pt.p ≤ (turning 56).pt.pc + (turning 56).pt.tol) ∧
    (¬((turning 9).pt.p ≤ (turning 9).pt.pc + (turning 9).pt.tol ∨ (turning 9).pt.pc ≤ (turning 9).pt.tol)) ∧
    ¬((turning 55).pt.p ≤ (turning 55).pt.pc + (turning 55).pt.tol ∨ (turning 55).pt.pc ≤ (turning 55).pt.tol) := by
  decide

/-- A publication in flight, of a revolution with one sector folded into or with none. -/
def publishing (count : Nat) : State :=
  { running with pt := { running.pt with
      revNumber := 65535
      inFlight := some ⟨65535,
        ⟨List.replicate 31 {} ++ [{ count := count, tmax := some 40000, tmin := some (-40000), sum := 12 }], false, .restart, .inWindow,
          70000000, -1⟩⟩
      waiting := some ⟨List.replicate 32 {}, false, .inWindow, .inWindow, 1, 1⟩ } }

theorem witness_PublicationWritesTheSectorBlock :
    (∃ pub, (publishing 3).pt.inFlight = some pub ∧ pub.rev.table.length = 32 ∧
      (pub.rev.table.filter fun e => e.count ≠ 0) ≠ [] ∧ (publishing 3).LayoutInv) ∧
    ∃ pub, (publishing 0).pt.inFlight = some pub ∧ pub.rev.table.length = 32 ∧
      (pub.rev.table.filter fun e => e.count ≠ 0) = [] :=
  ⟨⟨_, rfl, rfl, by decide, by simp [State.LayoutInv, publishing, running, fit, ready, State.reset]⟩, ⟨_, rfl, rfl, by decide⟩⟩

/-- A copy in flight into slot 3, of as many snapshots as a copy can hold. -/
def copying : State :=
  { running with rcu := { running.rcu with
      capture := some 3, preCount := 96, postCount := 23
      copy := some ⟨List.replicate 127 0x1234, List.replicate 96 running.snapshot⟩ } }

/-- A report in flight, and another that waits. -/
def reporting : State :=
  { running with rn := { running.rn with
      inFlight := some (List.replicate 240 0x4321), waiting := some (List.replicate 47 0x5678) } }

theorem witness_ReportAndRecordCopyComplete :
    (∃ ws vs, reporting.rn.inFlight = some ws ∧ ws.length = 240 ∧ reporting.rn.waiting = some vs ∧ reporting.LayoutInv) ∧
    (∃ j, copying.rcu.capture = some 3 ∧ copying.rcu.copy = some j ∧ j.header.length = 127 ∧ j.pre.length ≤ 96 ∧
      copying.LayoutInv) ∧
    (copying.startUp ≠ .initPowerOn ∧ (0x2FFF : Addr).toNat < Config.xmWords) :=
  ⟨⟨_, _, rfl, rfl, rfl, by simp [State.LayoutInv, reporting, running, fit, ready, State.reset]⟩,
    ⟨_, rfl, rfl, rfl, by decide, by simp [State.LayoutInv, copying, running, fit, ready, State.reset]⟩, by decide⟩

/-- A warm reset that cuts a publication, and one that cuts a report. -/
theorem witness_WarmResetsLeaveResetValues_cut :
    ((publishing 3).startUp = .ready ∧ (publishing 3).resetLow = false ∧ (publishing 3).LayoutInv ∧
      ∃ pub, (publishing 3).pt.inFlight = some pub) ∧
    (reporting.startUp = .ready ∧ reporting.resetLow = false ∧ reporting.LayoutInv ∧ ∃ ws, reporting.rn.inFlight = some ws) :=
  ⟨⟨rfl, rfl, by simp [State.LayoutInv, publishing, running, fit, ready, State.reset], _, rfl⟩,
    ⟨rfl, rfl, by simp [State.LayoutInv, reporting, running, fit, ready, State.reset], _, rfl⟩⟩

theorem running_slotInv : running.SlotInv := by
  refine ⟨by simp [State.TripInv, running, fit, ready, State.reset], ?_, by decide⟩
  simp [State.LayoutInv, running, fit, ready, State.reset]

/-- Reads that fall with a trip, with the 24th hand-off of a capture, and with the close of a window without one. -/
theorem witness_ReportAndRecordCopyComplete_events :
    (running.SlotInv ∧ running.startUp ≠ .initPowerOn ∧ running.rc.drive ≠ .tripped ∧ LowestFreeSlot running.xm (some 0) ∧
      ∃ t, exec (.urgentStop 1) running = .next t ∧ t.rc.drive = .tripped) ∧
    ((tripped 23).SlotInv ∧ (tripped 23).startUp ≠ .initPowerOn ∧ (tripped 23).rcu.capture = some 1 ∧
      (tripped 23).tu.openEntry = some 0 ∧
      ∃ t, exec .truPeriodExpiry (tripped 23) = .next t ∧ t.rc.drive = .tripped ∧
        t.rcu.postCount = (tripped 23).rcu.postCount + 1 ∧ t.tu.openEntry = none) ∧
    (let s := { tripped 23 with xm := [], rcu := { (tripped 23).rcu with capture := none } }
     s.SlotInv ∧ s.rcu.capture = none ∧ s.tu.openEntry = some 0 ∧
      ∃ t, exec .truPeriodExpiry s = .next t ∧ t.rc.drive = .tripped ∧ t.tu.openEntry = none) := by
  refine ⟨⟨running_slotInv, by decide, by decide, ⟨.inl rfl, fun j hj => absurd hj (Fin.not_lt_zero j)⟩, _, rfl, rfl⟩,
    ⟨tripped_slotInv 23 (by decide), by decide, rfl, rfl, _, rfl, rfl, rfl, rfl⟩,
    ⟨?_, ?_, by decide⟩, rfl, rfl, _, rfl, rfl, rfl⟩
  · simp [State.TripInv, tripped, ready, State.reset]
  · simp [State.LayoutInv, tripped, ready, State.reset]

theorem witness_RecordCopyHoldsTheTrip :
    sampled.startUp = .ready ∧ (1 : Word).getLsbD 0 = true ∧ (1 : Word).getLsbD 2 = false ∧ sampled.rc.drive ≠ .tripped ∧
    (sampled.slotWord 1 = 0 ∨ sampled.slotWord 1 = 3) ∧ (∀ j < (1 : Fin 4), sampled.slotWord j ≠ 0 ∧ sampled.slotWord j ≠ 3) ∧
    min 96 sampled.rcu.fillCount = 1 ∧
    ∀ i < 1, (ringAt sampled.rcu.ring ((sampled.tru.snapNumber + 65536 - 1 + i) % 256)).isSome = true := by
  decide

/-- Sixteen bytes of 0. -/
def sixteen : List Byte := List.replicate 16 0

theorem witness_LinkDiscardsBadAndRepeatedFrames :
    (running.link.get .a).synced = true ∧
    (let short : List RxByte := List.replicate 7 ⟨0, false⟩; short ≠ [] ∧ short.length ≠ 8) ∧
    (let bad : List RxByte := List.replicate 7 ⟨0, false⟩ ++ [⟨0, true⟩]; bad.length = 8 ∧ ∃ b ∈ bad, b.framingError = true) ∧
    (let bytes : List Byte := [1, 1, 0, 0, 0, 0, 0, 0]; crc16 (bytes.take 6) ≠ bytes.getD 6 0 ++ bytes.getD 7 0) ∧
    (running.link.get .b).synced = true ∧ (running.link.get .b).lastSeq = some (7 : Byte).toNat := by
  decide

theorem witness_AcceptedFrameIsRegulated :
    let l := running.link.get .a
    let imeas := ((0x30 : Byte) ++ (0x00 : Byte)).toInt
    let st : Byte := 1
    l.synced = true ∧ l.lastSeq ≠ some (9 : Byte).toNat ∧ (∀ p, l.lastSeq = some p → p ≤ 255) ∧
    imeas.natAbs ≤ (running.reg.get .a).ioc ∧
    (running.rc.isolated.get .a = true ∨
      ((st.getLsbD 1 = false ∨ l.fault = true) ∧
        (running.rc.drive.live = false ∨ st.getLsbD 0 = true ∨ l.ready = false))) :=
  ⟨by decide, by decide, fun p hp => by simp [running, fit, upLink, Pair.get] at hp; omega, by decide, by decide⟩

theorem witness_AcceptedFrameReportsItsCauses :
    let l := running.link.get .a
    l.synced = true ∧ l.lastSeq ≠ some (8 : Byte).toNat ∧ l.lastSeq = some 7 ∧ 7 ≤ 255 ∧
    (running.reg.get .a).ioc < (((0x30 : Byte) ++ (0x01 : Byte)).toInt).natAbs ∧
    (running.rc.isolated.get .a = false ∧ (2 : Byte).getLsbD 1 = true ∧ l.fault = false) ∧
    (running.rc.isolated.get .a = false ∧ running.rc.drive.live = true ∧ (2 : Byte).getLsbD 0 = false ∧ l.ready = true) := by
  decide

/-- A frame is being sent on link A, and another waits. -/
def sendingA : State :=
  { running with link := ⟨{ upLink with sending := some ⟨blockCommand.bytes 0, 8⟩, holding := some ⟨true, -16384⟩ }, upLink⟩ }

theorem witness_LinesSynchroniseClearAndSend :
    (ready.startUp = .ready ∧ (ready.link.get .a).breakHeld = false) ∧
    ∃ f, (sendingA.link.get .a).sending = some f ∧ (sendingA.link.get .a).holding.isSome = true :=
  ⟨by decide, ⟨_, rfl, rfl⟩⟩

theorem witness_BreakAndLossAreReported :
    ((running.link.get .a).synced = true ∧ running.rc.isolated.get .a = false) ∧
    ((running.link.get .b).lossTimer = some 900 ∧ (running.link.get .b).rx = .up ∧ running.rc.isolated.get .b = false) ∧
    (let s := { fit with rc := { fit.rc with isolated := ⟨true, false⟩ } }
     (s.link.get .a).synced = true ∧ (s.link.get .a).lossTimer = some 900 ∧ s.rc.isolated.get .a = true) ∧
    (let s := { fit with link := ⟨{ upLink with rx := .lost }, upLink⟩ }
     (s.link.get .a).lossTimer = some 900 ∧ (s.link.get .a).rx ≠ .up) := by
  decide

theorem witness_ExternalTripIsFiltered :
    (ready.startUp = .ready ∧ true ≠ ready.tu.extRaw) ∧ (State.reset.startUp ≠ .ready ∧ true ≠ State.reset.tu.extRaw) ∧
    (let s := after (.extripInputChange true) ready
     s.tu.extTimer = some 2000 ∧ s.tu.extRaw = true ∧ s.tu.extFiltered = false) ∧
    (let s := after (.extripInputChange false) (after (.extripInputChange true) ready)
     s.tu.extTimer = some 2000 ∧ ¬(s.tu.extRaw = true ∧ s.tu.extFiltered = false)) := by
  decide

/-- The FIFO full behind an evaluation. -/
def fullFifo : State := { evaluating with vw := { evaluating.vw with fifo := evaluating.vw.fifo ++ [⟨0, Octet.build fun _ => 0⟩] } }

theorem witness_SensorPortDiscardsQueuesAndIsLost :
    (evaluating.vw.synced = true ∧ (List.replicate 21 (⟨0, false⟩ : RxByte)).length ≠ 20) ∧
    ((1 : Byte) :: sixteen).length = 17 ∧ evaluating.vw.lastSeq = some (255 : Byte).toNat ∧
    (evaluating.vw.lastSeq ≠ some (0 : Byte).toNat ∧ evaluating.vw.fifo.length = 2 ∧ evaluating.vw.evaluation.isSome = true) ∧
    (fullFifo.vw.synced = true ∧ fullFifo.vw.lastSeq ≠ some (0 : Byte).toNat ∧ 3 ≤ fullFifo.vw.fifo.length) ∧
    (evaluating.vw.lossTimer = some 1600 ∧ evaluating.vw.rx = .up) := by
  decide

/-- The port UP and the unit COLLECTING: channel 0 one sample short of its block, channel 1 one sample short of a stuck run. -/
def collecting : State :=
  { evaluating with vw := { evaluating.vw with
      fifo := [], evaluation := none
      channels := (evaluating.vw.channels.set 0 { level := .quiet, count := 1023 }).set 1
        { level := .alert, tripEnable := true, stuck := 255, lastRaw := some 0 } } }

theorem witness_TakenSampleFrameMovesTheChannels :
    collecting.vw.synced = true ∧ ((1 : Byte) :: sixteen).length = 17 ∧ collecting.vw.lastSeq ≠ some (0 : Byte).toNat ∧
    (∀ p, collecting.vw.lastSeq = some p → p ≤ 255) ∧ collecting.vw.evaluation = none ∧ collecting.vw.fifo = [] :=
  ⟨by decide, by decide, by decide, fun p hp => by simp [collecting, evaluating] at hp; omega, rfl, rfl⟩

/-- An evaluation of channel 0 with no frame waiting. -/
def judging : State := { evaluating with vw := { evaluating.vw with fifo := [] } }

theorem witness_EvaluationJudgesItsBlocks :
    ∃ e, judging.vw.evaluation = some e ∧ judging.vw.fifo = [] ∧ (e.latched.map (·.channel)).Nodup ∧
      ∃ l ∈ e.latched, l.channel = 0 ∧ l.gapped = false ∧ l.dropped = false :=
  ⟨_, rfl, rfl, by decide, by decide⟩

theorem witness_EvaluationMovesDerateAndTrips :
    (∃ e, evaluating.vw.evaluation = some e ∧ evaluating.vw.fifo.length = 2) ∧
    ∃ e, judging.vw.evaluation = some e ∧ judging.vw.fifo = [] ∧ (∃ l ∈ e.latched, l.gapped = false ∧ l.dropped = false) ∧
      (e.latched.map (·.channel)).Nodup ∧ 1 ≤ judging.vw.ld :=
  ⟨⟨_, rfl, rfl⟩, _, rfl, rfl, by decide, by decide, by decide⟩

theorem witness_TruExpiryTakesASnapshotAndFolds :
    running.tru.timer = some 1000 ∧ running.rc.drive = .running ∧
    ((after .truPeriodExpiry running).rc.drive = running.rc.drive ∧ running.rcu.capture = none ∧ running.tu.window = none) := by
  decide

theorem witness_DemandPhaseFollowsTheSequence :
    running.tru.timer = some 1000 ∧
    (let s := { running with tru := { running.tru with lastSeq := some 0, unchanged := 219, phase := .hold } }
     s.tru.timer = some 1000 ∧ s.tru.sd + s.tru.hs ≤ s.tru.unchanged + 1) := by
  decide

theorem witness_TorqueIsLimitedRampedAndShared :
    running.tru.timer = some 1000 ∧ running.tru.envelope.Pairwise (fun x y => x.1 < y.1) := by
  decide

theorem witness_WatchesCountAndTrip :
    running.tru.timer = some 1000 ∧ running.rc.drive.live = true ∧ running.rcu.capture = none ∧ running.tu.window = none := by
  decide

theorem witness_WindowCountsAndCloses :
    (let s := tripped 23
     s.tru.timer = some 1000 ∧ s.rc.drive = .tripped ∧ s.tu.window = some 23 ∧ 23 ≤ 23 ∧ s.tu.openEntry = some 0 ∧
       s.tu.causeList.length ≤ 8 ∧ s.rcu.capture = some 1 ∧ s.rcu.copy = none ∧ s.rcu.preCount + s.rcu.postCount ≤ 119) ∧
    (let s := tripped 22
     s.tru.timer = some 1000 ∧ s.rc.drive = .tripped ∧ s.tu.window = some 22 ∧ s.tu.openEntry = some 0 ∧
       s.tu.causeList.length ≤ 8 ∧ s.rcu.capture = some 1 ∧ s.rcu.copy = none ∧ s.rcu.preCount + s.rcu.postCount ≤ 119) ∧
    (let s := { tripped 0 with rcu := { (tripped 0).rcu with copy := some ⟨List.replicate 127 0, []⟩ } }
     s.tru.timer = some 1000 ∧ s.rc.drive = .tripped ∧ s.tu.window = some 0 ∧ s.tu.openEntry = some 0 ∧
       s.tu.causeList.length ≤ 8 ∧ s.rcu.capture = some 1 ∧ s.rcu.copy ≠ none ∧ s.rcu.preCount + s.rcu.postCount ≤ 119) ∧
    (let s := { tripped 23 with rcu := { (tripped 23).rcu with capture := none } }
     s.tru.timer = some 1000 ∧ s.rc.drive = .tripped ∧ s.tu.window = some 23 ∧ s.tu.openEntry = some 0 ∧
       s.tu.causeList.length ≤ 8 ∧ s.rcu.capture = none) := by
  decide

theorem witness_EnvelopeValueByTheTable :
    let points := [(0, 4096), (41, 100), (32767, 0)]
    points.Pairwise (fun x y => x.1 < y.1) ∧ points[1]? = some (41, 100) ∧ points[1 + 1]? = some (32767, 0) ∧ 41 ≤ 41 ∧
      41 < 32767 := by
  decide

/-! ### Small steps, with results the spec's examples or rules give -/

/-- 9.7: with link B DOWN, RUN is refused REFUSED_LINK with detail 1, and the walk ends REFUSED with index 1. -/
theorem test_run_refused_for_link_b :
    let t := after .run (taking .run .noTarget [] { fit with link := ⟨upLink, {}⟩ })
    t.xm.read 0x0401 = 0x0601#16 ∧ t.rc.drive = .stopped ∧ t.cw.outcome = .refused ∧ t.cw.walking = false ∧ t.cw.orderIndex = 1 := by
  decide

/-- 9.7: the same RUN with both links UP leaves DONE in the result word and the drive STARTING. -/
theorem test_run_done :
    let t := after .run (taking .run .noTarget [] fit)
    t.xm.read 0x0401 = 0x0100#16 ∧ t.rc.drive = .starting ∧ t.rc.permit = true ∧ t.cw.outcome = .ended ∧
      t.rc.breakAway = some 15000000 ∧ t.hostRead 0x3FFA = 0x0201#16 := by
  decide

/-- 9.7: a start written during a walk sets the start-refused flag and changes nothing else. -/
theorem test_start_refused_while_walking :
    after (.chainStartWrite 0x0600) (taking .setLoop .pair [] ready) =
      { taking .setLoop .pair [] ready with cw := { (taking .setLoop .pair [] ready).cw with startRefused := true } } := by
  decide

/-- R189: 0x8400 is outside the chain region, not read as 0x0400. -/
theorem test_start_invalid :
    (after (.chainStartWrite 0x8400) ready).cw.outcome = .startInvalid ∧ (after (.chainStartWrite 0x8400) ready).cw.walking = false := by
  decide

/-- 9.8: an urgent stop during a walk abandons it and trips the drive, first-out (1, 0); both notices are raised. -/
theorem test_urgent_stop_during_a_walk :
    let t := after (.urgentStop 1) (taking .setShare .noTarget [] running)
    t.cw.outcome = .abandoned ∧ t.rc.drive = .tripped ∧ t.tu.firstOut = some .urgentStop ∧ t.hostRead 0x3FFA = 0x0003#16 ∧
      t.xm.read 0x0401 = 0 := by
  decide

/-- R183, R190: a trip whose notice is marked takes the INT pin low, and the PERMIT pin with the drive. -/
theorem test_output_pins :
    let s := after (.noticeMaskWrite 2) running
    let t := after (.urgentStop 1) s
    s.intPin = true ∧ s.permitPin = true ∧ t.intPin = false ∧ t.permitPin = false := by
  decide

/-- R129 to R131, R149: a first cause writes chronicle entry 0 and takes slot 0. -/
theorem test_first_trip_is_chronicled :
    let t := after (.urgentStop 1) running
    t.xm.readBlock 0x0100 8 = [1, 0, 1, 0, 1, 0, 0, 0x8003] ∧ t.xm.read 0x1000 = 1 ∧ t.rcu.capture = some 0 := by
  decide

/-- R131, R159: a read that falls with the trip finds the slot FILLING and the entry's first words new, its marks and its trip number
still old, and the trip number new only behind the marks. -/
theorem test_entry_half_written :
    let t := after (.urgentStop 1) running
    let seen := fun k (a : Addr) => running.hostReadDuring t ⟨fun _ => 0, fun _ => false⟩ k a
    [0x1000, 0x0102, 0x0104, 0x0107, 0x0100].map (seen 4) = [1, 1, 1, 0, 0] ∧
      [0x0107, 0x0100].map (seen 7) = [0x8003, 0] ∧ seen 8 0x0100 = 1 := by
  decide

/-- 1.11: a speed of 38 leaves the drive STARTING, and one of 55 makes it RUNNING. -/
theorem test_creep_speed :
    (after .speedWindowExpiry { starting with pt := { starting.pt with timer := some 1, nw := 38 } }).rc.drive = .starting ∧
    (after .speedWindowExpiry { starting with pt := { starting.pt with timer := some 1, nw := 55 } }).rc.drive = .running := by
  decide

/-- 1.11: in STOPPING a speed of -44 stops the stop-hold timer, and one of -20 starts it with its full time. -/
theorem test_stop_hold :
    (after .speedWindowExpiry { stopping with pt := { stopping.pt with timer := some 1, nw := -44 } }).rc.stopHold = none ∧
    (after .speedWindowExpiry
      { stopping with
        now := 603100000, rc := { stopping.rc with stopHold := none }
        pt := { stopping.pt with timer := some 603100000, nw := -20 } }).rc.stopHold = some 605100000 := by
  decide

/-- 5.11: 120 pulses under Kspd 4369 read 2047. -/
theorem test_speed_of_five_eleven : speedOf 120 4369 = 2047 := by decide

/-- The tracker of 5.11 at a Pc, with the net count of its revolution. -/
def kiln (pc : Nat) (net : Int) (wrapped : Bool) : State :=
  { ready with pt := { ready.pt with
      p := 36000, tol := 562, pc := pc, sector := pc * 32 / 36000, netCount := net, wrapped := wrapped, taint := false
      tracking := .tracking, startKind := .inWindow, lastComb := some 0 } }

/-- 5.11: a marker at Pc 120 after one wrap ends a valid revolution of 36,120. -/
theorem test_marker_in_window :
    ((after .markerArrival (kiln 120 36120 true)).pt.inFlight.map fun p => (p.number, p.rev.valid, p.rev.netCount)) =
      some (1, true, 36120) := by
  decide

/-- 5.11: a forward pulse to Pc 563 with wrapped set is a missed-marker boundary of 36,563, not valid. -/
theorem test_missed_marker :
    let t := after (.quadratureChange .a 1) (kiln 562 36562 true)
    (t.pt.inFlight.map fun p => (p.rev.endKind, p.rev.valid, p.rev.netCount)) = some (.missedMarker, false, 36563) ∧
      t.pt.tracking = .uncertain ∧ t.pt.pc = 563 := by
  decide

/-- The frames of 4.9: READY set, no current. -/
def coming (seq : Byte) : List RxByte := goodFrame [seq, 1, 0, 0, 0, 0]

/-- A link of 4.9: synchronised, with a last sequence and a good run. -/
def atSeq (seq run : Nat) : State := { ready with link := ⟨{ synced := true, lastSeq := some seq, goodRun := run }, {}⟩ }

/-- 4.9: a repeated 18 is a duplicate; 21 after 19 is accepted with one frame missed, and is answered with a BLOCK frame. -/
theorem test_link_coming_up :
    (after (.linkFrameCompletion .a (coming 18)) (atSeq 18 2)).link.a.duplicates = ⟨1, false⟩ ∧
    (let l := (after (.linkFrameCompletion .a (coming 21)) (atSeq 19 0)).link.a
     l.missed = ⟨1, false⟩ ∧ l.goodRun = 1 ∧ l.sending = some ⟨blockCommand.bytes 0, 8⟩) := by
  decide

/-- R67: the fourth frame in a row brings the link UP, with the LINK notice. -/
theorem test_link_up :
    let t := after (.linkFrameCompletion .a (coming 24)) (atSeq 23 3)
    t.link.a.rx = .up ∧ t.hostRead 0x3FFA = 0x0100#16 := by
  decide

/-- R87: a torque fold into an empty sector takes the value as Tmax and Tmin. -/
theorem test_torque_fold :
    ((after .truPeriodExpiry { running with link := ⟨{ upLink with imeas := 100 }, { upLink with imeas := -30 }⟩ }).pt.table.head?.map
      fun e => (e.count, e.tmax, e.tmin, e.sum)) = some (1, some 70, some 70, 70) := by
  decide

/-- R20 to R22, R28: a changed sequence makes TD the demand, and Tcmd moves toward it by the run ramp of 40. -/
theorem test_demand_and_ramp :
    let t := after .truPeriodExpiry
      { running with xm := [(0, 6), (1, 3000)], tru := { running.tru with lastSeq := some 5 } }
    t.tru.tdem = 3000 ∧ t.tru.tcmd = 40 ∧ t.tru.iref = ⟨20, 20⟩ ∧ t.tru.phase = .fresh := by
  decide

/-- R113, R114, R116: a block at the danger level counts up and dn; the first of Pd 2 leaves the channel QUIET. -/
theorem test_first_danger_block :
    let c := (after .evaluationEnd judging).vw.channels.get 0
    c.lastRms = 4096 ∧ c.level = .quiet ∧ c.up = 1 ∧ c.dn = 1 := by
  decide

/-- R162, R143: a warm reset keeps the trip count and the next index, and empties the slot being filled. -/
theorem test_device_reset_keeps_the_trip_count :
    let t := after (.deviceReset 4) (tripped 3)
    t.tu.tripCount = 1 ∧ t.tu.nextIndex = 1 ∧ t.xm.read 0x1800 = 0 ∧ t.rc.drive = .stopped ∧ t.initEnd = some 100 := by
  decide

/-- R146: RELEASED is stored in a slot state word, and any other value is ignored. -/
theorem test_slot_release :
    (after (.slotRelease 1 3) (tripped 3)).xm.read 0x1800 = 3 ∧ (after (.slotRelease 1 0) (tripped 3)).xm.read 0x1800 = 1 := by
  decide

end Sys2Proof.Tests
end

/-! What refuses RUN, check by check (R5): each check of State.runRefusal read as the condition it tests, the refusal as the first of
them that fails, and the statement of RUN's refusals (O31). -/

namespace Sys2Proof.Machine

/-! ### Check 2: the required flags (R4) -/

/-- Flag n is required for RUN and clear (R4). -/
def RunControl.Missing (r : RunControl) (n : Nat) : Prop :=
  (n = 1 ∧ r.isolated.a = false ∧ r.flags.loopA = false) ∨ (n = 2 ∧ r.isolated.b = false ∧ r.flags.loopB = false) ∨
  (n = 3 ∧ r.isolated.a = false ∧ r.flags.limitsA = false) ∨
  (n = 4 ∧ r.isolated.b = false ∧ r.flags.limitsB = false) ∨ (n = 5 ∧ r.flags.envelope = false) ∨
  (n = 6 ∧ r.flags.position = false)

/-- A missing flag is a row of the table of required flags that is required and not set. -/
theorem RunControl.missing_iff (r : RunControl) (n : Nat) :
    r.Missing n ↔ ∃ f ∈ r.requiredFlags, f.1 = n ∧ (f.2.1 && !f.2.2) = true := by
  simp [RunControl.Missing, RunControl.requiredFlags, eq_comm (b := n)]

/-- In a list that ascends by its first components, the search finds the element that passes the test with the lowest of them. -/
theorem find?_eq_some_of_lowest {β : Type} {p : Nat × β → Bool} {f : Nat × β} {l : List (Nat × β)}
    (ascending : l.Pairwise (·.1 < ·.1)) (mem : f ∈ l) (pass : p f = true) (lowest : ∀ g ∈ l, g.1 < f.1 → p g = false) :
    l.find? p = some f := by
  induction l with
  | nil => cases mem
  | cons x xs ih =>
    obtain ⟨head, tail⟩ := List.pairwise_cons.1 ascending
    rcases List.mem_cons.1 mem with rfl | hf
    · exact List.find?_cons_of_pos pass
    · have skip : p x = false := lowest x List.mem_cons_self (head f hf)
      rw [List.find?_cons_of_neg (by simp [skip])]
      exact ih tail hf fun g hg => lowest g (List.mem_cons_of_mem x hg)

/-- The required flags are listed in the order of their numbers. -/
theorem RunControl.requiredFlags_ascending (r : RunControl) : r.requiredFlags.Pairwise (·.1 < ·.1) := by
  simp [RunControl.requiredFlags]

/-- Check 2 names the lowest missing flag. -/
theorem RunControl.missingFlag_eq_some {r : RunControl} {n : Nat} (missing : r.Missing n) (lowest : ∀ m < n, ¬r.Missing m) :
    r.missingFlag = some n := by
  obtain ⟨f, hf, rfl, pass⟩ := (r.missing_iff n).1 missing
  have below : ∀ g ∈ r.requiredFlags, g.1 < f.1 → (g.2.1 && !g.2.2) = false := fun g hg hlt =>
    Bool.eq_false_iff.2 fun hp => lowest g.1 hlt ((r.missing_iff g.1).2 ⟨g, hg, rfl, hp⟩)
  unfold RunControl.missingFlag
  rw [find?_eq_some_of_lowest r.requiredFlags_ascending hf pass below]
  rfl

/-- Check 2 passes when no flag is missing. -/
theorem RunControl.missingFlag_eq_none {r : RunControl} (complete : ∀ n, ¬r.Missing n) : r.missingFlag = none := by
  unfold RunControl.missingFlag
  rw [Option.map_eq_none_iff, List.find?_eq_none]
  exact fun f hf hp => complete f.1 ((r.missing_iff f.1).2 ⟨f, hf, rfl, hp⟩)

/-! ### Check 3: the links of the channels in service -/

/-- A channel in service whose link is not UP, not READY, in FAULT or with a break held. -/
def State.Unfit (s : State) (ch : Chan) : Prop :=
  s.rc.isolated.get ch = false ∧ ¬((s.link.get ch).rx = .up ∧ (s.link.get ch).ready = true ∧
    (s.link.get ch).fault = false ∧ (s.link.get ch).breakHeld = false)

theorem Link.fit_iff (l : Link) :
    l.fit = true ↔ l.rx = .up ∧ l.ready = true ∧ l.fault = false ∧ l.breakHeld = false := by
  simp [Link.fit, and_assoc]

/-- The test of check 3 on one channel. -/
theorem State.unfit_iff (s : State) (ch : Chan) :
    (!s.rc.isolated.get ch && !(s.link.get ch).fit) = true ↔ s.Unfit ch := by
  rw [State.Unfit, ← Link.fit_iff]
  simp

/-- Check 3 names channel A when its link is not fit. -/
theorem State.unfitLink_eq_a {s : State} (a : s.Unfit .a) : s.unfitLink = some .a :=
  List.find?_cons_of_pos ((s.unfit_iff .a).2 a)

/-- Check 3 names channel B when only its link is not fit. -/
theorem State.unfitLink_eq_b {s : State} (a : ¬s.Unfit .a) (b : s.Unfit .b) : s.unfitLink = some .b := by
  have passA := Bool.eq_false_iff.2 (mt (s.unfit_iff .a).1 a)
  simp only [State.unfitLink, List.find?_cons, passA, (s.unfit_iff .b).2 b]

/-- Check 3 passes when no link is unfit. -/
theorem State.unfitLink_eq_none {s : State} (a : ¬s.Unfit .a) (b : ¬s.Unfit .b) : s.unfitLink = none := by
  have passA := Bool.eq_false_iff.2 (mt (s.unfit_iff .a).1 a)
  have passB := Bool.eq_false_iff.2 (mt (s.unfit_iff .b).1 b)
  simp only [State.unfitLink, List.find?_cons, passA, passB, List.find?_nil]

/-! ### Check 4: level injections -/

/-- Check 4 asks whether some sensor channel has an injection. -/
theorem VibrationWatch.injecting_iff (v : VibrationWatch) :
    v.injecting = true ↔ ∃ i, (v.channels.get i).injection ≠ none := by
  simp [VibrationWatch.injecting, Octet.mem_toList, Option.isSome_iff_ne_none]

/-! ### The first check that fails -/

/-- The result word of REFUSED_STATE (9.5). -/
theorem refusedState_word (d : Nat) : (refusedState d).word = wordN (0x0200 + d) := by
  simp [OrderResult.word, refusedState]

/-- The result word of REFUSED_CONFIG (9.5). -/
theorem refusedConfig_word (d : Nat) : (refusedConfig d).word = wordN (0x0500 + d) := by
  simp [OrderResult.word, refusedConfig]

theorem State.runRefusal_of_drive {s : State} (drive : s.rc.drive ≠ .stopped) :
    s.runRefusal = some (refusedState s.rc.drive.code) := if_pos drive

theorem State.runRefusal_of_flag {s : State} {n : Nat} (drive : s.rc.drive = .stopped) (flag : s.rc.missingFlag = some n) :
    s.runRefusal = some (refusedConfig n) := by
  simp [State.runRefusal, drive, flag]

theorem State.runRefusal_of_link {s : State} {ch : Chan} (drive : s.rc.drive = .stopped) (flags : s.rc.missingFlag = none)
    (link : s.unfitLink = some ch) : s.runRefusal = some (refusedLink (chanIndex ch)) := by
  simp [State.runRefusal, drive, flags, link]

theorem State.runRefusal_of_injection {s : State} (drive : s.rc.drive = .stopped) (flags : s.rc.missingFlag = none)
    (links : s.unfitLink = none) (injection : s.vw.injecting = true) : s.runRefusal = some (refusedState 6) := by
  simp [State.runRefusal, drive, flags, links, injection]

/-- A ready RUN that a check of R5 refuses leaves that refusal's result word. The checks do not read the order index, so that the
walker's count before the owner acts makes no difference. -/
theorem takeUp_run_refused {s : State} {r : OrderResult} (hr : s.RecordReady .run) (refusal : s.runRefusal = some r)
    (code : r.accepted = false) : RecordRefused r.word s (takeUp .run ownRun s) := by
  have counted : s.countRecord.runRefusal = some r := refusal
  have owner : ownRun s.recordOrder s.countRecord = (s.countRecord, r) := by simp [ownRun, counted]
  exact takeUp_refused hr owner code

/-- Settles O31: each clause names the first check of R5 that fails, and with it the refusal that the take-up leaves. -/
theorem runRefusedAtItsFirstCheck : Obligations.RunRefusedAtItsFirstCheck := by
  intro s hr missing unfit
  refine ⟨takeUp .run ownRun s, exec_command .run s, ?_, ?_, ?_, ?_, ?_⟩
  · intro drive
    rw [← refusedState_word]
    exact takeUp_run_refused hr (State.runRefusal_of_drive drive) rfl
  · intro drive n flag lowest
    rw [← refusedConfig_word]
    exact takeUp_run_refused hr (State.runRefusal_of_flag drive (RunControl.missingFlag_eq_some flag lowest)) rfl
  · intro drive flags a
    have link := State.unfitLink_eq_a a
    exact takeUp_run_refused hr (State.runRefusal_of_link drive (RunControl.missingFlag_eq_none flags) link) rfl
  · intro drive flags a b
    have link := State.unfitLink_eq_b a b
    exact takeUp_run_refused hr (State.runRefusal_of_link drive (RunControl.missingFlag_eq_none flags) link) rfl
  · intro drive flags a b injection
    have links := State.unfitLink_eq_none a b
    exact takeUp_run_refused hr
      (State.runRefusal_of_injection drive (RunControl.missingFlag_eq_none flags) links (s.vw.injecting_iff.2 injection)) rfl

end Sys2Proof.Machine

/-! The envelope value by the table of cases (R24): one equation for each case of the definition, the step past a breakpoint that lies
below, and the statement of the envelope value (O60). -/

namespace Sys2Proof.Machine

/-- Up to the first breakpoint the envelope is its L. -/
theorem envelopeValue_upToFirst (p : Nat × Nat) (rest : List (Nat × Nat)) {v : Nat} (h : v ≤ p.1) :
    envelopeValue (p :: rest) v = p.2 := by
  cases rest with
  | nil => rfl
  | cons q rest => exact if_pos h

/-- Between the first two breakpoints the envelope is the floor of the line; at the first itself the line gives its L. -/
theorem envelopeValue_betweenFirstTwo (p q : Nat × Nat) (rest : List (Nat × Nat)) {v : Nat} (lo : p.1 ≤ v) (hi : v < q.1) :
    envelopeValue (p :: q :: rest) v = p.2 + ((q.2 : Int) - p.2) * ((v : Int) - p.1) / ((q.1 : Int) - p.1) := by
  rcases lo.eq_or_lt with rfl | above
  · simp [envelopeValue_upToFirst]
  · simp only [envelopeValue, if_neg above.not_ge, if_pos hi]

/-- A speed that has reached a later breakpoint of an ascending table does not use the first one. -/
theorem envelopeValue_pastFirst {p r : Nat × Nat} {rest : List (Nat × Nat)} {v : Nat}
    (ascending : (p :: rest).Pairwise fun x y => x.1 < y.1) (later : r ∈ rest) (reached : r.1 ≤ v) :
    envelopeValue (p :: rest) v = envelopeValue rest v := by
  cases rest with
  | nil => cases later
  | cons q rest =>
    obtain ⟨first, tail⟩ := List.pairwise_cons.1 ascending
    have hpq : p.1 < q.1 := first q List.mem_cons_self
    have hqr : q.1 ≤ r.1 := by
      rcases List.mem_cons.1 later with rfl | hr
      · exact le_rfl
      · exact ((List.pairwise_cons.1 tail).1 r hr).le
    have notFirst : ¬v ≤ p.1 := by omega
    have notSecond : ¬v < q.1 := by omega
    simp only [envelopeValue, if_neg notFirst, if_neg notSecond]

/-- From the last breakpoint on the envelope is its L. -/
theorem envelopeValue_fromLast {points : List (Nat × Nat)} {p : Nat × Nat} {v : Nat}
    (ascending : points.Pairwise fun x y => x.1 < y.1) (last : points.getLast? = some p) (h : p.1 ≤ v) :
    envelopeValue points v = p.2 := by
  induction points with
  | nil => cases last
  | cons r rest ih =>
    cases rest with
    | nil =>
      obtain rfl : r = p := by simpa using last
      rfl
    | cons q rest =>
      have last' : (q :: rest).getLast? = some p := by rwa [List.getLast?_cons_cons] at last
      rw [envelopeValue_pastFirst ascending (List.mem_of_getLast? last') h]
      exact ih ascending.of_cons last'

/-- Between two neighbouring breakpoints the envelope is the floor of the line between them. -/
theorem envelopeValue_between {points : List (Nat × Nat)} {i : Nat} {p q : Nat × Nat} {v : Nat}
    (ascending : points.Pairwise fun x y => x.1 < y.1) (hp : points[i]? = some p) (hq : points[i + 1]? = some q)
    (lo : p.1 ≤ v) (hi : v < q.1) :
    envelopeValue points v = p.2 + ((q.2 : Int) - p.2) * ((v : Int) - p.1) / ((q.1 : Int) - p.1) := by
  induction points generalizing i with
  | nil => cases hp
  | cons r rest ih =>
    rw [List.getElem?_cons_succ] at hq
    cases i with
    | zero =>
      obtain rfl : r = p := by simpa using hp
      cases rest with
      | nil => cases hq
      | cons q' rest =>
        obtain rfl : q' = q := by simpa using hq
        exact envelopeValue_betweenFirstTwo r q' rest lo hi
    | succ i =>
      rw [List.getElem?_cons_succ] at hp
      rw [envelopeValue_pastFirst ascending (List.mem_of_getElem? hp) lo]
      exact ih ascending.of_cons hp hq

/-- Settles O60: the three cases of R24, each by its own lemma. -/
theorem envelopeValueByTheTable : Obligations.EnvelopeValueByTheTable := by
  intro points v ascending
  refine ⟨fun p first h => ?_, fun p last h => envelopeValue_fromLast ascending last h,
    fun i p q hp hq lo hi => envelopeValue_between ascending hp hq lo hi⟩
  obtain ⟨rest, rfl⟩ := List.head?_eq_some_iff.1 first
  exact envelopeValue_upToFirst p rest h

end Sys2Proof.Machine

/-! LOAD ENVELOPE (R40): the check of a table as a search for the first bad breakpoint, the owner's three answers, and the statement
of what the order leaves (O26). -/

namespace Sys2Proof.Machine

/-! ### The search for the first bad breakpoint -/

/-- Breakpoint i of a table passes the checks of R40: both its values within 0 to 32767, and its s above the one before. -/
abbrev PointGood (point : Nat → Nat × Nat) (i : Nat) : Prop :=
  (point i).1 ≤ 32767 ∧ (point i).2 ≤ 32767 ∧ (0 < i → (point (i - 1)).1 < (point i).1)

/-- The s of the breakpoint before breakpoint i; none before the first. -/
def speedBefore (point : Nat → Nat × Nat) : Nat → Option Nat
  | 0 => none
  | i + 1 => some (point i).1

/-- The search stops at a bad breakpoint and goes on behind a good one. -/
theorem badPoint_cons (point : Nat → Nat × Nat) (i : Nat) (rest : List (Nat × Nat)) :
    badPoint i (speedBefore point i) (point i :: rest) =
      if PointGood point i then badPoint (i + 1) (speedBefore point (i + 1)) rest else some i := by
  cases i with
  | zero =>
    rw [speedBefore, badPoint, ← ite_not]
    exact if_congr (by simp [PointGood]) rfl rfl
  | succ i =>
    simp only [speedBefore, badPoint]
    by_cases good : PointGood point (i + 1)
    · obtain ⟨speed, limit, ascent⟩ := id good
      have above : (point i).1 < (point (i + 1)).1 := ascent i.succ_pos
      rw [if_pos good, if_neg (by omega), if_neg above.not_ge]
    · rw [if_neg good, ite_eq_left_iff, ite_eq_left_iff]
      exact fun range ascent => absurd ⟨by omega, by omega, fun _ => not_le.1 ascent⟩ good

/-- On the breakpoints from index k on, the search finds the first index whose breakpoint is bad. -/
theorem badPoint_eq_find? (point : Nat → Nat × Nat) (k m : Nat) :
    badPoint k (speedBefore point k) ((List.range' k m).map point) = (List.range' k m).find? fun i => ¬PointGood point i := by
  induction m generalizing k with
  | zero => rfl
  | succ m ih =>
    rw [List.range'_succ, List.map_cons, badPoint_cons, ih]
    by_cases good : PointGood point k
    · rw [if_pos good, List.find?_cons_of_neg (by rwa [decide_eq_true_eq, not_not])]
    · rw [if_neg good, List.find?_cons_of_pos (by rwa [decide_eq_true_eq])]

/-- A table of good breakpoints has no bad one. -/
theorem badPoint_eq_none {point : Nat → Nat × Nat} {n : Nat} (good : ∀ i < n, PointGood point i) :
    badPoint 0 none ((List.range n).map point) = none := by
  rw [List.range_eq_range']
  refine (badPoint_eq_find? point 0 n).trans (List.find?_eq_none.2 fun i hi => ?_)
  have hin : i < n := by simpa using hi
  rw [decide_eq_true_eq, not_not]
  exact good i hin

/-- The first bad breakpoint of a table is the one that the search names. -/
theorem badPoint_eq_some {point : Nat → Nat × Nat} {n i : Nat} (hi : i < n) (good : ∀ j < i, PointGood point j)
    (bad : ¬PointGood point i) : badPoint 0 none ((List.range n).map point) = some i := by
  have search := badPoint_eq_find? point 0 n
  rw [← List.range_eq_range'] at search
  refine search.trans (List.find?_range_eq_some.2 ⟨by rwa [decide_eq_true_eq], List.mem_range.2 hi, fun j hj => ?_⟩)
  rw [decide_not, Bool.not_not, decide_eq_true_eq]
  exact good j hj

/-! ### The owner's answers -/

/-- Breakpoint i of the record at the next offset: s, then L (9.5). -/
abbrev State.envelopePoint (s : State) (i : Nat) : Nat × Nat := (s.par (1 + 2 * i), s.par (2 + 2 * i))

/-- The count of a ready LOAD ENVELOPE. -/
theorem State.RecordReady.envelopeCount {s : State} (hr : s.RecordReady .loadEnvelope) : s.recordOrder.p 0 = s.par 0 :=
  hr.par 0 (by decide)

/-- The breakpoints of a ready LOAD ENVELOPE, up to the eight places that its record has. -/
theorem State.RecordReady.envelopePoints {s : State} (hr : s.RecordReady .loadEnvelope) {n : Nat} (hn : n ≤ 8) :
    envelopePoints s.recordOrder n = (List.range n).map s.envelopePoint := by
  refine List.map_congr_left fun i hi => ?_
  have hin : i < n := List.mem_range.1 hi
  have hlen : OrderKind.loadEnvelope.length = 19 := rfl
  rw [hr.par (1 + 2 * i) (by omega), hr.par (2 + 2 * i) (by omega)]

/-- What the owner's check of the count says (R40). -/
theorem envelopeCount_inRange (n : Nat) : inRange n 2 8 = true ↔ 2 ≤ n ∧ n ≤ 8 := by
  rw [inRange, Bool.and_eq_true, decide_eq_true_eq, decide_eq_true_eq]

/-- The state with a new envelope and flag 5 set (R4, R40). -/
def State.loadEnvelope (s : State) (points : List (Nat × Nat)) : State :=
  { s with
    tru := { s.tru with envelope := points }
    rc := { s.rc with flags := { s.rc.flags with envelope := true } } }

section
variable {o : Order} {n : Nat} (s : State) (hn : o.p 0 = n)
include hn

/-- A count out of range is refused with detail 8. -/
theorem ownLoadEnvelope_of_badCount (count : ¬(2 ≤ n ∧ n ≤ 8)) : ownLoadEnvelope o s = (s, refusedTable 8) := by
  have out : inRange n 2 8 = false := Bool.eq_false_iff.2 (mt (envelopeCount_inRange n).1 count)
  simp [ownLoadEnvelope, hn, out]

/-- A bad breakpoint is refused with its index. -/
theorem ownLoadEnvelope_of_badPoint {i : Nat} (count : 2 ≤ n ∧ n ≤ 8) (bad : badPoint 0 none (envelopePoints o n) = some i) :
    ownLoadEnvelope o s = (s, refusedTable i) := by
  simp [ownLoadEnvelope, hn, (envelopeCount_inRange n).2 count, bad]

/-- A table without a bad breakpoint is loaded. -/
theorem ownLoadEnvelope_of_goodTable (count : 2 ≤ n ∧ n ≤ 8) (good : badPoint 0 none (envelopePoints o n) = none) :
    ownLoadEnvelope o s = (s.loadEnvelope (envelopePoints o n), resDone) := by
  simp [ownLoadEnvelope, hn, (envelopeCount_inRange n).2 count, good, State.loadEnvelope, State.modFlags]

end

/-- The result word of REFUSED_TABLE (9.5). -/
theorem refusedTable_word (d : Nat) : (refusedTable d).word = wordN (0x0400 + d) := by
  simp [OrderResult.word, refusedTable]

/-- Settles O26: the count, and then the search, decide which of its three answers the owner gives. -/
theorem loadEnvelopeReplacesOrRefuses : Obligations.LoadEnvelopeReplacesOrRefuses := by
  intro s hr n good
  have hn : s.recordOrder.p 0 = n := hr.envelopeCount
  refine ⟨takeUp .loadEnvelope ownLoadEnvelope s, exec_command .loadEnvelope s, ?_, ?_, ?_⟩
  · intro count
    exact takeUp_refused hr (ownLoadEnvelope_of_badCount _ hn count) rfl
  · intro count allGood
    have search := badPoint_eq_none (point := s.envelopePoint) allGood
    rw [← hr.envelopePoints count.2] at search
    have loaded := takeUp_done hr (ownLoadEnvelope_of_goodTable s.countRecord hn count search) rfl
    rw [hr.envelopePoints count.2] at loaded
    exact loaded
  · intro count i hi below bad
    have search := badPoint_eq_some (point := s.envelopePoint) hi below bad
    rw [← hr.envelopePoints count.2] at search
    rw [← refusedTable_word]
    exact takeUp_refused hr (ownLoadEnvelope_of_badPoint _ hn count search) rfl

end Sys2Proof.Machine

/-! CLEAR DERATE (R121): the search for the lowest enabled channel that is not QUIET, the owner's four answers, and the statement of
what the order leaves (O35). -/

namespace Sys2Proof.Machine

/-! ### The lowest enabled channel that is not QUIET -/

/-- The channel is enabled and not QUIET (R121). -/
abbrev SensorChannel.Loud (c : SensorChannel) : Prop := c.level ≠ .disabled ∧ c.level ≠ .quiet

/-- The owner's test of one channel. -/
theorem SensorChannel.loud_iff (c : SensorChannel) : (c.enabled && c.level != .quiet) = true ↔ c.Loud := by
  simp [SensorChannel.enabled]

/-- The search finds no channel when none is loud. -/
theorem VibrationWatch.loudChannel_eq_none {v : VibrationWatch} (calm : ∀ i, ¬(v.channels.get i).Loud) : v.loudChannel = none :=
  List.find?_eq_none.2 fun i _ pass => calm i ((SensorChannel.loud_iff _).1 pass)

/-- The sensor channels are listed in the order of their numbers. -/
theorem sensorNumbers_eq_finRange : sensorNumbers = List.finRange 8 := by decide

/-- The search finds the loud channel below which no channel is loud. -/
theorem VibrationWatch.loudChannel_eq_some {v : VibrationWatch} {i : Fin 8} (loud : (v.channels.get i).Loud)
    (lowest : ∀ j < i, ¬(v.channels.get j).Loud) : v.loudChannel = some i := by
  rw [VibrationWatch.loudChannel, sensorNumbers_eq_finRange, List.find?_eq_some_iff_getElem]
  refine ⟨(SensorChannel.loud_iff _).2 loud, i.val, by simp, by simp, fun j hj => ?_⟩
  have calm := mt (SensorChannel.loud_iff _).1 (lowest ⟨j, hj.trans i.isLt⟩ hj)
  simpa [imp_iff_not_or] using calm

/-! ### The release of derate -/

/-- The state with derate NONE and quiet time 0, and with DERATE raised under ANY (R120, R122). -/
def State.releaseDerate (s : State) : State :=
  { s with
    vw := { s.vw with derate := .none, quietTime := 0 }
    rn := { s.rn with notice := if s.rn.derateAny then s.rn.notice ||| 0x20#10 else s.rn.notice } }

/-- A change of derate that is no entry raises DERATE under ANY only (R122). -/
theorem State.notifyDerate_false (s : State) : s.notifyDerate false =
    { s with rn := { s.rn with notice := if s.rn.derateAny then s.rn.notice ||| 0x20#10 else s.rn.notice } } := by
  rw [State.notifyDerate, Bool.false_or, State.notifyIf]
  by_cases any : s.rn.derateAny = true
  · rw [if_pos any, if_pos any]; rfl
  · rw [if_neg any, if_neg any]

/-- Leaving an established derate is no entry change. -/
theorem State.setDerate_none_zeroQuiet {s : State} (established : s.vw.derate ≠ .none) :
    (s.setDerate .none).zeroQuiet = s.releaseDerate := by
  have noEntry : (s.vw.derate == .none) = false := beq_eq_false_iff_ne.2 established
  rw [State.setDerate, if_neg established, noEntry, State.notifyDerate_false]
  rfl

/-! ### The owner's answers -/

section
variable (o : Order) {s : State}

/-- Without a derate there is nothing to release. -/
theorem ownClearDerate_of_none (derate : s.vw.derate = .none) : ownClearDerate o s = (s, resDone) := if_pos derate

/-- A port that is not UP is refused with detail 8. -/
theorem ownClearDerate_of_port (derate : s.vw.derate ≠ .none) (port : s.vw.rx ≠ .up) :
    ownClearDerate o s = (s, refusedActive 8) := by
  rw [ownClearDerate, if_neg derate, if_pos port]

/-- A loud channel is refused with its number. -/
theorem ownClearDerate_of_loud {i : Fin 8} (derate : s.vw.derate ≠ .none) (port : s.vw.rx = .up)
    (loud : s.vw.loudChannel = some i) : ownClearDerate o s = (s, refusedActive i.val) := by
  simp [ownClearDerate, derate, port, loud]

/-- Under the quiet condition the derate is released. -/
theorem ownClearDerate_of_quiet (derate : s.vw.derate ≠ .none) (port : s.vw.rx = .up) (quiet : s.vw.loudChannel = none) :
    ownClearDerate o s = (s.releaseDerate, resDone) := by
  simp [ownClearDerate, derate, port, quiet, State.setDerate_none_zeroQuiet derate]

end

/-- The result word of REFUSED_ACTIVE (9.5). -/
theorem refusedActive_word (d : Nat) : (refusedActive d).word = wordN (0x0700 + d) := by
  simp [OrderResult.word, refusedActive]

/-- Settles O35: each row of R121 is one answer of the owner. The owner acts behind the walker's count of the record, which changes
no word of the vibration watch. -/
theorem clearDerateUnderTheQuietCondition : Obligations.ClearDerateUnderTheQuietCondition := by
  intro s hr loud
  refine ⟨takeUp .clearDerate ownClearDerate s, exec_command .clearDerate s, ?_, ?_, ?_, ?_⟩
  · intro derate
    have kept := takeUp_done hr (ownClearDerate_of_none (s := s.countRecord) _ derate) rfl
    exact kept
  · intro derate port calm
    have quiet : s.vw.loudChannel = none := VibrationWatch.loudChannel_eq_none calm
    have released := takeUp_done hr (ownClearDerate_of_quiet (s := s.countRecord) _ derate port quiet) rfl
    exact released
  · intro derate port
    exact takeUp_refused hr (ownClearDerate_of_port (s := s.countRecord) _ derate port) rfl
  · intro derate port i found lowest
    have first : s.vw.loudChannel = some i := VibrationWatch.loudChannel_eq_some found lowest
    rw [← refusedActive_word]
    exact takeUp_refused hr (ownClearDerate_of_loud (s := s.countRecord) _ derate port first) rfl

end Sys2Proof.Machine

/-! TRIP RESET (R138 to R140): the tests of R139 read as its conditions, the lowest active latched cause, the owner's four answers, and
the statement of what the order leaves (O33). -/

namespace Sys2Proof.Machine

/-! ### The lowest active latched cause (R138, check 3) -/

/-- The owner's test of a cause is the condition of R139. -/
theorem State.causeActive_iff (s : State) (c : Cause) : s.causeActive c = true ↔ s.ActiveCause c := by
  cases c with
  | externalTrip => exact Iff.rfl
  | overcurrent ch => exact decide_eq_true_iff
  | linkLoss ch => simp [State.causeActive, State.ActiveCause]
  | converterFault ch kind => simp [State.causeActive, State.ActiveCause, or_assoc]
  | vibrationDanger n => exact beq_iff_eq
  | urgentStop | torqueExcess | pinionImbalance | stall | test => exact iff_of_false Bool.false_ne_true id

/-- A code stands in the list that check 3 searches when an active latched cause has it. -/
theorem State.mem_activeCodes {s : State} {n : Nat} :
    n ∈ (s.tu.latched.filter s.causeActive).map Cause.code ↔ ∃ c ∈ s.tu.latched, s.ActiveCause c ∧ c.code = n := by
  simp only [List.mem_map, List.mem_filter, State.causeActive_iff, and_assoc]

/-- Check 3 passes when no latched cause is active. -/
theorem State.lowestActive_eq_none {s : State} (calm : ∀ c ∈ s.tu.latched, ¬s.ActiveCause c) : s.lowestActive = none := by
  refine List.min?_eq_none_iff.2 (List.eq_nil_iff_forall_not_mem.2 fun n hn => ?_)
  obtain ⟨c, latched, active, -⟩ := State.mem_activeCodes.1 hn
  exact calm c latched active

/-- Check 3 names the code of an active latched cause below which no active latched cause has a code. -/
theorem State.lowestActive_eq_some {s : State} {c : Cause} (latched : c ∈ s.tu.latched) (active : s.ActiveCause c)
    (lowest : ∀ d ∈ s.tu.latched, s.ActiveCause d → c.code ≤ d.code) : s.lowestActive = some c.code := by
  refine List.min?_eq_some_iff.2 ⟨State.mem_activeCodes.2 ⟨c, latched, active, rfl⟩, fun n hn => ?_⟩
  obtain ⟨d, hd, activeD, rfl⟩ := State.mem_activeCodes.1 hn
  exact lowest d hd activeD

/-! ### The owner's answers -/

/-- The state with no latched cause, no first-out, the drive STOPPED and STATE raised (R140, R12). -/
def State.resetTrip (s : State) : State :=
  { s with
    tu := { s.tu with latched := [], firstOut := none }
    rc := { s.rc with drive := .stopped }
    rn := { s.rn with notice := s.rn.notice ||| 0x200#10 } }

section
variable (o : Order) {s : State}

/-- A drive that is not TRIPPED is refused with the code of its state. -/
theorem ownTripReset_of_drive (drive : s.rc.drive ≠ .tripped) : ownTripReset o s = (s, refusedState s.rc.drive.code) :=
  if_pos drive

/-- An open window is refused with its count. -/
theorem ownTripReset_of_window {n : Nat} (drive : s.rc.drive = .tripped) (window : s.tu.window = some n) :
    ownTripReset o s = (s, refusedWindow n) := by
  simp [ownTripReset, drive, window]

/-- An active latched cause is refused with the lowest code of one. -/
theorem ownTripReset_of_active {n : Nat} (drive : s.rc.drive = .tripped) (window : s.tu.window = none)
    (active : s.lowestActive = some n) : ownTripReset o s = (s, refusedActive n) := by
  simp [ownTripReset, drive, window, active]

/-- When the three checks pass, the trip is reset. -/
theorem ownTripReset_of_calm (drive : s.rc.drive = .tripped) (window : s.tu.window = none) (calm : s.lowestActive = none) :
    ownTripReset o s = (s.resetTrip, resDone) := by
  have mark : Notice.state.mark = 0x200#10 := by decide
  simp [ownTripReset, drive, window, calm, State.leaveTripped, State.notify, State.resetTrip, mark]

end

/-- The result word of REFUSED_WINDOW (9.5). -/
theorem refusedWindow_word (d : Nat) : (refusedWindow d).word = wordN (0x0800 + d) := by
  simp [OrderResult.word, refusedWindow]

/-- Settles O33: the first check of R138 that fails, or the passing of all three, decides which answer the owner gives. The owner acts
behind the walker's count of the record, which none of the checks reads. -/
theorem tripResetByItsChecks : Obligations.TripResetByItsChecks := by
  intro s hr
  refine ⟨takeUp .tripReset ownTripReset s, exec_command .tripReset s, ?_, ?_, ?_, ?_⟩
  · intro drive window calm
    have noneActive : s.lowestActive = none := State.lowestActive_eq_none calm
    have reset := takeUp_done hr (ownTripReset_of_calm (s := s.countRecord) _ drive window noneActive) rfl
    exact reset
  · intro drive
    rw [← refusedState_word]
    exact takeUp_refused hr (ownTripReset_of_drive (s := s.countRecord) _ drive) rfl
  · intro drive n window _
    rw [← refusedWindow_word]
    exact takeUp_refused hr (ownTripReset_of_window (s := s.countRecord) _ drive window) rfl
  · intro drive window c latched active lowest
    have first : s.lowestActive = some c.code := State.lowestActive_eq_some latched active lowest
    rw [← refusedActive_word]
    exact takeUp_refused hr (ownTripReset_of_active (s := s.countRecord) _ drive window first) rfl

end Sys2Proof.Machine

/-! The take-up of a record with a format fault (R168): the codes of the kinds and the table of their lengths, the walker's checks read
as the statement's, what is left when a walk ends at a result, and the statement (O22). -/

namespace Sys2Proof.Machine

/-! ### The eighteen kinds (9.5, 11.4) -/

/-- A kind is named by its own code only. -/
theorem OrderKind.code_eq_of_ofCode {n : Nat} {k : OrderKind} (named : OrderKind.ofCode n = some k) : k.code = n := by
  unfold OrderKind.ofCode at named
  split at named <;> cases named <;> rfl

/-- The codes of the kinds lie from 1 to 18. -/
theorem OrderKind.code_bounds (k : OrderKind) : 1 ≤ k.code ∧ k.code ≤ 18 := by cases k <;> decide

/-- The codes that name no kind are 0 and those above 18. -/
theorem OrderKind.ofCode_eq_none_iff (n : Nat) : OrderKind.ofCode n = none ↔ n = 0 ∨ 18 < n := by
  constructor
  · intro unnamed
    by_contra inRange
    obtain ⟨lo, hi⟩ : 1 ≤ n ∧ n ≤ 18 := by omega
    interval_cases n <;> cases unnamed
  · intro outside
    refine Option.eq_none_iff_forall_ne_some.2 fun k named => ?_
    have code := OrderKind.code_eq_of_ofCode named
    have bounds := k.code_bounds
    omega

/-- The statement's table of lengths holds the length of each kind at its code. -/
theorem kindLengths_of_ofCode {n : Nat} {k : OrderKind} (named : OrderKind.ofCode n = some k) :
    kindLengths[n - 1]? = some k.length := by
  rw [← OrderKind.code_eq_of_ofCode named]
  cases k <;> rfl

/-! ### The checks of R168 -/

section
variable {s : State}

/-- A header of none of the eighteen kinds fails check 3. -/
theorem State.formatFault_of_noKind (index : s.cw.orderIndex < 64) (offset : s.cw.nextOffset ≤ 0x0FFF)
    (kind : OrderKind.ofCode s.recordHeader.kind = none) : s.formatFault = some 1 := by
  rw [State.formatFault, if_neg (by omega), if_neg (by omega), kind]

/-- A header of one of the eighteen kinds is left to checks 4 and 5. -/
theorem State.formatFault_of_kind {k : OrderKind} (index : s.cw.orderIndex < 64) (offset : s.cw.nextOffset ≤ 0x0FFF)
    (kind : OrderKind.ofCode s.recordHeader.kind = some k) :
    s.formatFault = if s.recordHeader.length ≠ k.length then some 2
      else if 0x0FFF < s.cw.nextOffset + s.recordHeader.length - 1 then some 3 else none := by
  rw [State.formatFault, if_neg (by omega), if_neg (by omega), kind]

/-- The detail that the statement gives is the one the walker finds: check by check, the first that fails. -/
theorem State.formatFault_of_formatDetail {d : Nat} (detail : s.formatDetail d) : s.formatFault = some d := by
  have kindField : s.recordHeader.kind = s.header.toNat % 32 := rfl
  have lengthField : s.recordHeader.length = s.header.toNat / 1024 % 32 := rfl
  rw [State.formatDetail, ← kindField, ← lengthField] at detail
  by_cases index : 64 ≤ s.cw.orderIndex
  · rw [if_pos index] at detail
    rw [State.formatFault, if_pos (by omega), detail]
  by_cases offset : 0x0FFF < s.cw.nextOffset
  · rw [if_neg index, if_pos offset] at detail
    rw [State.formatFault, if_neg (by omega), if_pos offset, detail]
  rw [if_neg index, if_neg offset] at detail
  rw [not_le] at index
  rw [not_lt] at offset
  cases kind : OrderKind.ofCode s.recordHeader.kind with
  | none =>
    rw [if_pos ((OrderKind.ofCode_eq_none_iff _).1 kind)] at detail
    rw [State.formatFault_of_noKind index offset kind, detail]
  | some k =>
    have inRange : ¬(s.recordHeader.kind = 0 ∨ 18 < s.recordHeader.kind) := by
      simp [← OrderKind.ofCode_eq_none_iff, kind]
    rw [if_neg inRange, kindLengths_of_ofCode kind] at detail
    rw [State.formatFault_of_kind index offset kind]
    by_cases length : s.recordHeader.length = k.length
    · rw [if_neg (by simp [length])] at detail
      obtain ⟨pastEnd, rfl⟩ := detail
      rw [if_neg (not_not_intro length), if_pos pastEnd]
    · rw [if_pos (by simpa using Ne.symm length)] at detail
      rw [if_pos length, detail]

/-! ### The end of the walk -/

/-- A walker that finds a format fault writes FORMAT behind its count of the record, and ends the walk FAULT. -/
theorem State.takeUpFault_of_formatFault {d : Nat} (walking : s.cw.walking = true) (fault : s.formatFault = some d) :
    s.takeUpFault = (s.countRecord.writeResult s.cw.nextOffset (resFormat d)).endWalk .fault := by
  simp [State.takeUpFault, walking, fault]

end

/-- The result word of FORMAT (9.5). -/
theorem resFormat_word (d : Nat) : (resFormat d).word = wordN (0x0900 + d) := by
  simp [OrderResult.word, resFormat]

/-- Writing a result changes exchange memory alone. -/
theorem State.writeResult_eq (s : State) (off : Nat) (r : OrderResult) :
    s.writeResult off r = { s with xm := (s.writeResult off r).xm } := by
  unfold State.writeResult; split <;> rfl

/-- A walk that ends changes the walker's state and outcome, and raises CHAIN (R170). -/
theorem State.endWalk_eq (s : State) (o : WalkOutcome) :
    s.endWalk o = { s with
      cw := { s.cw with walking := false, outcome := o }
      rn := { s.rn with notice := s.rn.notice ||| 1#10 } } := by
  have mark : Notice.chain.mark = 1#10 := by decide
  rw [State.endWalk, State.notify, mark]

/-- Settles O22: the walker finds the fault that the statement names; FORMAT is then the only word written, and the end of the walk and
the count of the record are the only other changes. -/
theorem formatFaultEndsTheWalk : Obligations.FormatFaultEndsTheWalk := by
  intro s d walking detail
  have fault : s.formatFault = some d := State.formatFault_of_formatDetail detail
  refine ⟨s.takeUpFault, rfl, ?_⟩
  rw [State.takeUpFault_of_formatFault walking fault]
  constructor
  · intro a ha
    rw [State.endWalk_xm, State.read_writeResult _ _ _ _ ha, resFormat_word, State.countRecord_xm]
  · rw [State.endWalk_eq, State.writeResult_eq]
    rfl

end Sys2Proof.Machine

/-! The parts that the later proofs share: the frames of the bus and reset operations, the stages of an evaluation's end, of an
accepted measure frame and of a computation, and what a property must keep to be kept by each of them. -/

namespace Sys2Proof.Machine

/-! ### The frames of the bus and reset operations -/

@[simp] theorem State.pinHigh_keeps (s : State) :
    (s.pinHigh).pending = s.pending ∧ (s.pinHigh).now = s.now ∧ (s.pinHigh).startUp = s.startUp ∧ (s.pinHigh).freeIndex =
    s.freeIndex ∧ (s.pinHigh).xm = s.xm ∧ (s.pinHigh).rc = s.rc ∧ (s.pinHigh).tru = s.tru ∧ (s.pinHigh).reg = s.reg ∧
    (s.pinHigh).link = s.link ∧ (s.pinHigh).tloss = s.tloss ∧ (s.pinHigh).pt = s.pt ∧ (s.pinHigh).vw = s.vw ∧ (s.pinHigh).tu
    = s.tu ∧ (s.pinHigh).rcu = s.rcu ∧ (s.pinHigh).rn = s.rn ∧ (s.pinHigh).cw = s.cw := by
  unfold State.pinHigh; split
  · cases s.startUp <;> simp
  · simp

@[simp] theorem State.endInit_keeps (s : State) :
    (s.endInit).pending = s.pending ∧ (s.endInit).resetLow = s.resetLow ∧ (s.endInit).freeIndex = s.freeIndex ∧
    (s.endInit).xm = s.xm ∧ (s.endInit).rc = s.rc ∧ (s.endInit).reg = s.reg ∧ (s.endInit).link = s.link ∧ (s.endInit).tloss
    = s.tloss ∧ (s.endInit).vw = s.vw ∧ (s.endInit).cw = s.cw := by
  unfold State.endInit; split <;> simp

@[simp] theorem State.writeChainStart_keeps (s : State) (w : Word) :
    (s.writeChainStart w).pending = s.pending ∧ (s.writeChainStart w).now = s.now ∧ (s.writeChainStart w).startUp =
    s.startUp ∧ (s.writeChainStart w).initEnd = s.initEnd ∧ (s.writeChainStart w).resetLow = s.resetLow ∧ (s.writeChainStart
    w).freeIndex = s.freeIndex ∧ (s.writeChainStart w).xm = s.xm ∧ (s.writeChainStart w).rc = s.rc ∧ (s.writeChainStart
    w).tru = s.tru ∧ (s.writeChainStart w).reg = s.reg ∧ (s.writeChainStart w).link = s.link ∧ (s.writeChainStart w).tloss =
    s.tloss ∧ (s.writeChainStart w).pt = s.pt ∧ (s.writeChainStart w).vw = s.vw ∧ (s.writeChainStart w).tu = s.tu ∧
    (s.writeChainStart w).rcu = s.rcu := by
  unfold State.writeChainStart; (repeat' split) <;> simp

@[simp] theorem State.writeNotice_keeps (s : State) (w : Word) :
    (s.writeNotice w).pending = s.pending ∧ (s.writeNotice w).now = s.now ∧ (s.writeNotice w).startUp = s.startUp ∧
    (s.writeNotice w).initEnd = s.initEnd ∧ (s.writeNotice w).resetLow = s.resetLow ∧ (s.writeNotice w).freeIndex =
    s.freeIndex ∧ (s.writeNotice w).xm = s.xm ∧ (s.writeNotice w).rc = s.rc ∧ (s.writeNotice w).tru = s.tru ∧ (s.writeNotice
    w).reg = s.reg ∧ (s.writeNotice w).link = s.link ∧ (s.writeNotice w).tloss = s.tloss ∧ (s.writeNotice w).pt = s.pt ∧
    (s.writeNotice w).vw = s.vw ∧ (s.writeNotice w).tu = s.tu ∧ (s.writeNotice w).rcu = s.rcu ∧ (s.writeNotice w).cw = s.cw := by
  unfold State.writeNotice; split <;> simp

@[simp] theorem State.writeMask_keeps (s : State) (w : Word) :
    (s.writeMask w).pending = s.pending ∧ (s.writeMask w).now = s.now ∧ (s.writeMask w).startUp = s.startUp ∧ (s.writeMask
    w).initEnd = s.initEnd ∧ (s.writeMask w).resetLow = s.resetLow ∧ (s.writeMask w).freeIndex = s.freeIndex ∧ (s.writeMask
    w).xm = s.xm ∧ (s.writeMask w).rc = s.rc ∧ (s.writeMask w).tru = s.tru ∧ (s.writeMask w).reg = s.reg ∧ (s.writeMask
    w).link = s.link ∧ (s.writeMask w).tloss = s.tloss ∧ (s.writeMask w).pt = s.pt ∧ (s.writeMask w).vw = s.vw ∧
    (s.writeMask w).tu = s.tu ∧ (s.writeMask w).rcu = s.rcu ∧ (s.writeMask w).cw = s.cw := by
  unfold State.writeMask; split <;> simp

@[simp] theorem State.writeMemory_keeps (s : State) (a : Nat) (w : Word) :
    (s.writeMemory a w).pending = s.pending ∧ (s.writeMemory a w).now = s.now ∧ (s.writeMemory a w).startUp = s.startUp ∧
    (s.writeMemory a w).initEnd = s.initEnd ∧ (s.writeMemory a w).resetLow = s.resetLow ∧ (s.writeMemory a w).freeIndex =
    s.freeIndex ∧ (s.writeMemory a w).rc = s.rc ∧ (s.writeMemory a w).tru = s.tru ∧ (s.writeMemory a w).reg = s.reg ∧
    (s.writeMemory a w).link = s.link ∧ (s.writeMemory a w).tloss = s.tloss ∧ (s.writeMemory a w).pt = s.pt ∧ (s.writeMemory
    a w).vw = s.vw ∧ (s.writeMemory a w).tu = s.tu ∧ (s.writeMemory a w).rcu = s.rcu ∧ (s.writeMemory a w).rn = s.rn ∧
    (s.writeMemory a w).cw = s.cw := by
  unfold State.writeMemory; (repeat' split) <;> simp

@[simp] theorem State.takeUpFault_keeps (s : State) :
    (s.takeUpFault).pending = s.pending ∧ (s.takeUpFault).now = s.now ∧ (s.takeUpFault).startUp = s.startUp ∧
    (s.takeUpFault).initEnd = s.initEnd ∧ (s.takeUpFault).resetLow = s.resetLow ∧ (s.takeUpFault).freeIndex = s.freeIndex ∧
    (s.takeUpFault).rc = s.rc ∧ (s.takeUpFault).tru = s.tru ∧ (s.takeUpFault).reg = s.reg ∧ (s.takeUpFault).link = s.link ∧
    (s.takeUpFault).tloss = s.tloss ∧ (s.takeUpFault).pt = s.pt ∧ (s.takeUpFault).vw = s.vw ∧ (s.takeUpFault).tu = s.tu ∧
    (s.takeUpFault).rcu = s.rcu := by
  unfold State.takeUpFault; split <;> simp

/-! ### What an act on a list or behind range checks keeps -/

/-- What every act on one element keeps, the acts on a list keep. -/
theorem foldl_keeps {α σ : Type} {P : σ → Prop} {f : σ → α → σ} (act : ∀ s x, P s → P (f s x)) (l : List α) {s : σ} (h : P s) :
    P (l.foldl f s) := by
  induction l generalizing s with
  | nil => exact h
  | cons x l ih => exact ih (act s x h)

/-- An answer with range checks leaves the state it was given, or the effect, when every check passes. -/
theorem rangeChecked_keeps {P : State → Prop} {checks : List Bool} {s : State} {effect : State → State} (h : P s)
    (act : firstBad checks = none → P (effect s)) : P (rangeChecked checks s effect).1 := by
  unfold rangeChecked
  split
  · exact h
  case h_2 passes => exact act passes

/-- No check fails when each one passes. -/
theorem firstBad_eq_none_iff {checks : List Bool} : firstBad checks = none ↔ ∀ b ∈ checks, b = true := by
  induction checks with
  | nil => simp [firstBad]
  | cons b checks ih => cases b <;> simp [firstBad, ih]

/-- What a report keeps, a report under a condition keeps. -/
theorem State.reportIf_of {P : State → Prop} (report : ∀ u c, P u → P (u.report c)) {s : State} (h : P s) (b : Bool) (c : Cause) :
    P (s.reportIf b c) := by
  unfold State.reportIf
  split
  · exact report s c h
  · exact h

/-- An order that neither starts, stops, resets nor tests the drive keeps the drive state. -/
theorem OrderKind.owner_drive {k : OrderKind} (run : k ≠ .run) (stop : k ≠ .stop) (reset : k ≠ .tripReset) (test : k ≠ .testTrip)
    (o : Order) (s : State) : (k.owner o s).1.rc.drive = s.rc.drive := by
  cases k
  case run => exact absurd rfl run
  case stop => exact absurd rfl stop
  case tripReset => exact absurd rfl reset
  case testTrip => exact absurd rfl test
  case setLoop =>
    show (ownSetLoop o s).1.rc.drive = s.rc.drive
    unfold ownSetLoop
    split
    · rfl
    · refine rangeChecked_keeps (P := fun u => u.rc.drive = s.rc.drive) rfl fun _ => ?_
      refine foldl_keeps (P := fun u : State => u.rc.drive = s.rc.drive) (fun u ch h => ?_) _ rfl
      exact h
  case setLimits =>
    show (ownSetLimits o s).1.rc.drive = s.rc.drive
    unfold ownSetLimits
    split
    · rfl
    · refine rangeChecked_keeps (P := fun u => u.rc.drive = s.rc.drive) rfl fun _ => ?_
      refine foldl_keeps (P := fun u : State => u.rc.drive = s.rc.drive) (fun u ch h => ?_) _ rfl
      exact h
  case loadEnvelope =>
    show (ownLoadEnvelope o s).1.rc.drive = s.rc.drive
    unfold ownLoadEnvelope
    split
    · rfl
    · dsimp only; split <;> rfl
  case setPosition => exact rangeChecked_keeps (P := fun u => u.rc.drive = s.rc.drive) rfl fun _ => rfl
  case isolate =>
    show (ownIsolate o s).1.rc.drive = s.rc.drive
    unfold ownIsolate State.setIsolation
    (repeat' split) <;> rfl
  case restore =>
    show (ownRestore o s).1.rc.drive = s.rc.drive
    unfold ownRestore State.setIsolation
    (repeat' split) <;> rfl
  all_goals simp [OrderKind.owner]

/-! ### The watch's own moves -/

/-- Nothing of the part has moved but the time base, the vibration watch, the notices and the entries of the working table. -/
def WatchMoves (s t : State) : Prop :=
  t = { s with now := t.now, vw := t.vw, pt := { s.pt with table := t.pt.table }, rn := { s.rn with notice := t.rn.notice } }

theorem WatchMoves.rfl {s : State} : WatchMoves s s := Eq.refl _

theorem WatchMoves.trans {s t u : State} (h : WatchMoves s t) (k : WatchMoves t u) : WatchMoves s u := by
  unfold WatchMoves at *
  rw [k, h]

theorem WatchMoves.xm {s t : State} (m : WatchMoves s t) : t.xm = s.xm := by rw [m]
theorem WatchMoves.rc {s t : State} (m : WatchMoves s t) : t.rc = s.rc := by rw [m]
theorem WatchMoves.tru {s t : State} (m : WatchMoves s t) : t.tru = s.tru := by rw [m]
theorem WatchMoves.reg {s t : State} (m : WatchMoves s t) : t.reg = s.reg := by rw [m]
theorem WatchMoves.link {s t : State} (m : WatchMoves s t) : t.link = s.link := by rw [m]
theorem WatchMoves.tu {s t : State} (m : WatchMoves s t) : t.tu = s.tu := by rw [m]
theorem WatchMoves.rcu {s t : State} (m : WatchMoves s t) : t.rcu = s.rcu := by rw [m]
theorem WatchMoves.pt {s t : State} (m : WatchMoves s t) : t.pt = { s.pt with table := t.pt.table } := congrArg State.pt (show t = _ from m)
theorem WatchMoves.rn {s t : State} (m : WatchMoves s t) : t.rn = { s.rn with notice := t.rn.notice } := congrArg State.rn (show t = _ from m)

theorem WatchMoves.zeroQuiet {s t : State} (h : WatchMoves s t) : WatchMoves s t.zeroQuiet := h.trans (Eq.refl _)

theorem State.notifyIf_moves (s : State) (b : Bool) (n : Notice) : WatchMoves s (s.notifyIf b n) := by
  unfold State.notifyIf; split <;> rfl

theorem State.notifyLevel_moves (s : State) (b : Bool) : WatchMoves s (s.notifyLevel b) := s.notifyIf_moves _ _

theorem State.setDerate_moves (s : State) (d : Derate) : WatchMoves s (s.setDerate d) := by
  unfold State.setDerate
  split
  · rfl
  · refine WatchMoves.trans ?_ (State.notifyIf_moves _ _ _)
    rfl

theorem State.establishBlind_moves (s : State) : WatchMoves s s.establishBlind := (s.setDerate_moves .blind).zeroQuiet

theorem State.blindIf_moves (s : State) (b : Bool) : WatchMoves s (s.blindIf b) := by
  unfold State.blindIf
  split
  · exact s.establishBlind_moves
  · rfl

theorem State.foldGroup_moves (s : State) (g : Chan) (m : List Nat) : WatchMoves s (s.foldGroup g m) := by
  unfold State.foldGroup; split <;> rfl

theorem State.completionTest_moves (s : State) : WatchMoves s s.completionTest := by
  unfold State.completionTest; dsimp only; split <;> rfl

theorem State.faultEffects_moves (s : State) (l : List (Fin 8)) : WatchMoves s (s.faultEffects l) := by
  unfold State.faultEffects
  split
  · rfl
  · exact (s.notifyLevel_moves true).zeroQuiet.trans (State.blindIf_moves _ _)

theorem State.takeFrame_moves (s : State) (f : SampleFrame) : WatchMoves s (s.takeFrame f) := by
  have sampled : WatchMoves s { s with vw := { s.vw with channels := s.vw.sampled f } } := rfl
  exact (((sampled.trans (State.faultEffects_moves _ _)).trans (State.foldGroup_moves _ _ _)).trans
    (State.foldGroup_moves _ _ _)).trans (State.completionTest_moves _)

theorem State.drain_moves (s : State) (l : List SampleFrame) : WatchMoves s (s.drain l) := by
  induction l generalizing s with
  | nil => rfl
  | cons f rest ih =>
    have taken : WatchMoves s (State.takeFrame { s with vw := { s.vw with fifo := rest } } f) := by
      refine WatchMoves.trans ?_ (State.takeFrame_moves _ f)
      rfl
    unfold State.drain
    dsimp only
    split
    · exact taken
    · exact taken.trans (ih _)

theorem State.admitFrame_moves (s : State) (f : SampleFrame) : WatchMoves s (s.admitFrame f) := by
  unfold State.admitFrame
  split
  · rfl
  split
  · rfl
  · exact s.drain_moves _

theorem State.sampleFrame_moves (s : State) (f : List RxByte) : WatchMoves s (s.sampleFrame f) := by
  unfold State.sampleFrame
  split
  · rfl
  split
  · rfl
  case h_2 bytes _ =>
    split
    · rfl
    · unfold State.acceptSample
      refine WatchMoves.trans (WatchMoves.trans ?_ (State.notifyIf_moves _ _ _)) (State.admitFrame_moves _ _)
      rfl

theorem State.portLossExpires_moves (s : State) : WatchMoves s s.portLossExpires := by
  unfold State.portLossExpires
  split
  · rfl
  dsimp only
  split
  · unfold State.portLost
    refine WatchMoves.zeroQuiet (WatchMoves.trans ?_ (State.blindIf_moves _ _))
    rfl
  · rfl

theorem State.judgeBlock_moves (s : State) (l : Latched) : WatchMoves s (s.judgeBlock l) := by
  unfold State.judgeBlock
  split
  · dsimp only
    split
    · rfl
    split
    · refine WatchMoves.zeroQuiet (WatchMoves.trans ?_ (State.notifyLevel_moves _ _))
      rfl
    · refine WatchMoves.trans ?_ (State.notifyLevel_moves _ _)
      rfl
  · rfl

theorem State.judgeAll_moves (s : State) (ls : List Latched) : WatchMoves s (s.judgeAll ls) :=
  foldl_keeps (P := WatchMoves s) (fun u l h => h.trans (u.judgeBlock_moves l)) ls .rfl

theorem State.moveAlertTime_moves (s : State) : WatchMoves s s.moveAlertTime := by
  unfold State.moveAlertTime
  generalize (if s.vw.alarmed = true then satInc s.vw.alertTime else 0) = time
  dsimp only
  split
  · refine WatchMoves.zeroQuiet (WatchMoves.trans ?_ (State.setDerate_moves _ _))
    rfl
  · rfl

theorem State.moveQuietTime_moves (s : State) : WatchMoves s s.moveQuietTime := by
  unfold State.moveQuietTime
  split
  · rfl
  split
  · dsimp only
    split
    · refine WatchMoves.zeroQuiet (WatchMoves.trans ?_ (State.setDerate_moves _ _))
      rfl
    · rfl
  · rfl

/-! ### The stages of an evaluation's end (R110) -/

/-- Steps 1 and 2: the blocks judged, and the alert and quiet times moved when the evaluation is effective. -/
def State.evaluated (s : State) (e : Evaluation) : State :=
  let u := (s.reach e.due).judgeAll e.latched
  if e.latched.any Latched.judged then u.moveAlertTime.moveQuietTime else u

/-- Step 3: the channels that have entered DANGER reported while the drive is live. -/
def State.dangersReported (s : State) (e : Evaluation) : State :=
  let v := s.evaluated e
  if v.rc.drive.live then v.reportDangers (s.vw.dangers ((s.reach e.due).judgeAll e.latched).vw) else v

theorem State.evaluationEnds_eq {s : State} {e : Evaluation} (h : s.vw.evaluation = some e) :
    s.evaluationEnds = State.drain { s.dangersReported e with vw := { (s.dangersReported e).vw with evaluation := none } }
      (s.dangersReported e).vw.fifo := by
  unfold State.evaluationEnds
  rw [h]
  rfl

theorem State.evaluated_moves (s : State) (e : Evaluation) : WatchMoves s (s.evaluated e) := by
  have judged : WatchMoves s ((s.reach e.due).judgeAll e.latched) :=
    WatchMoves.trans (t := s.reach e.due) rfl (State.judgeAll_moves _ _)
  unfold State.evaluated
  dsimp only
  split
  · exact (judged.trans (State.moveAlertTime_moves _)).trans (State.moveQuietTime_moves _)
  · exact judged

/-- What a report and the watch's own moves keep, the end of an evaluation keeps. -/
theorem State.evaluationEnds_of {P : State → Prop} {s : State} (h : P s) (report : ∀ u c, P u → P (u.report c))
    (moves : ∀ u v, WatchMoves u v → P u → P v) : P s.evaluationEnds := by
  cases e : s.vw.evaluation with
  | none => unfold State.evaluationEnds; rw [e]; exact h
  | some e' =>
    rw [State.evaluationEnds_eq e]
    refine moves _ _ (State.drain_moves _ _) (moves (s.dangersReported e') _ rfl ?_)
    unfold State.dangersReported
    dsimp only
    split
    · exact foldl_keeps (fun u _ hu => report u _ hu) _ (moves _ _ (s.evaluated_moves e') h)
    · exact moves _ _ (s.evaluated_moves e') h

/-! ### The stages of an accepted measure frame (R66, R46) -/

/-- An accepted frame, regulated and answered, before any cause that it reports. -/
def State.regulated (s : State) (ch : Chan) (f : MeasureFrame) : State :=
  let t := (s.modLink ch fun l => l.accept f (s.now + s.tloss)).notifyIf (s.link.get ch).rises .link
  let out := (t.reg.get ch).arrival (t.tru.iref.get ch) f.imeas
  (t.modReg ch fun _ => out.1).modLink ch fun l => l.handOver out.2 t.now

/-- The causes of an accepted frame are reported in their order behind the regulated frame (R47, R70, R71). -/
theorem State.acceptMeasure_eq (s : State) (ch : Chan) (f : MeasureFrame) :
    s.acceptMeasure ch f =
      (((s.regulated ch f).reportIf ((s.reg.get ch).overcurrent f.imeas) (.overcurrent ch)).reportIf
        (!s.rc.isolated.get ch && f.fault && !(s.link.get ch).fault) (.converterFault ch .fault)).reportIf
        (!s.rc.isolated.get ch && s.rc.drive.live && !f.ready && (s.link.get ch).ready) (.converterFault ch .readyLost) := by
  have reg : ((s.modLink ch fun l => l.accept f (s.now + s.tloss)).notifyIf (s.link.get ch).rises .link).reg = s.reg := by simp
  unfold State.acceptMeasure State.arrival
  dsimp only
  rw [reg]
  unfold State.regulated
  dsimp only
  rw [reg]

/-- What a report, a discard and a regulated frame keep, a frame on a link keeps. -/
theorem State.linkFrame_of {P : State → Prop} {s : State} {ch : Chan} (h : P s) (report : ∀ u c, P u → P (u.report c))
    (bad : P (s.modLink ch Link.discardBad)) (duplicate : P (s.modLink ch Link.discardDuplicate))
    (regulated : ∀ bytes, P (s.regulated ch (decodeMeasure bytes))) (f : List RxByte) : P (s.linkFrame ch f) := by
  unfold State.linkFrame
  split
  · exact h
  split
  · exact bad
  split
  · exact duplicate
  · rw [State.acceptMeasure_eq]
    exact State.reportIf_of report (State.reportIf_of report (State.reportIf_of report (regulated _) _ _) _ _) _ _

/-! ### Operations that report a cause (R7, R62, R68, R135, R165), the RESET pin, the report timer -/

section
variable {P : State → Prop} {s : State}

/-- What a reset, a report and the end of a walk keep, a write to CONTROL keeps. -/
theorem State.writeControl_of (h : P s) (report : ∀ u c, P u → P (u.report c)) (reset : ∀ e, P (s.warmReset e))
    (abandon : ∀ u, P u → P u.abandonWalk) (w : Word) : P (s.writeControl w) := by
  unfold State.writeControl
  split
  · exact h
  split
  · exact reset _
  split
  · exact abandon _ (report s _ h)
  split
  · exact abandon s h
  · exact h

theorem State.pinLow_of (h : P s) (low : P { s with resetLow := true }) (reset : ∀ u, P u → P (u.warmReset none)) : P s.pinLow := by
  unfold State.pinLow
  split
  · exact h
  · exact reset _ low

/-- The state in which an expiry of the break-away timer is judged: the time base at the expiry, the timer stopped (R7). -/
def State.breakAwayDue (s : State) (due : Nat) : State := { s.reach due with rc := { s.rc with breakAway := none } }

theorem State.breakAwayExpires_of (h : P s) (report : ∀ u c, P u → P (u.report c)) (due : ∀ due, P (s.breakAwayDue due)) :
    P s.breakAwayExpires := by
  unfold State.breakAwayExpires
  split
  · exact h
  · exact State.reportIf_of report (due _) _ _

theorem State.breakDetected_of {ch : Chan} (h : P s) (report : ∀ u c, P u → P (u.report c))
    (broken : P (s.modLink ch fun l => { l with goodRun := 0, breakHeld := true, synced := false })) : P (s.breakDetected ch) := by
  unfold State.breakDetected
  split
  · exact State.reportIf_of report broken _ _
  · exact h

/-- The state in which a link's loss is judged: the time base at the expiry, the timer stopped, good run 0 (R68). -/
def State.lossDue (s : State) (ch : Chan) (due : Nat) : State :=
  (s.reach due).modLink ch fun l => { l with lossTimer := none, goodRun := 0 }

theorem State.linkLossExpires_of {ch : Chan} (h : P s) (report : ∀ u c, P u → P (u.report c)) (stopped : ∀ due, P (s.lossDue ch due))
    (lost : ∀ due, P (((s.lossDue ch due).modLink ch fun l => { l with rx := .lost }).notify .link)) : P (s.linkLossExpires ch) := by
  unfold State.linkLossExpires
  split
  · exact h
  dsimp only
  split
  · exact State.reportIf_of report (lost _) _ _
  · exact stopped _

/-- The state in which a change of the external trip input is judged: the time base at the expiry, the filtered level taken (R135). -/
def State.filtered (s : State) (due : Nat) : State :=
  { s.reach due with tu := { s.tu with extTimer := none, extFiltered := s.tu.extRaw } }

theorem State.externalExpires_of (h : P s) (report : ∀ u c, P u → P (u.report c)) (filtered : ∀ due, P (s.filtered due)) :
    P s.externalExpires := by
  unfold State.externalExpires
  split
  · exact h
  · exact State.reportIf_of report (filtered _) _ _

/-- The state in which an expiry of the report timer acts: the time base at the expiry, the timer restarted (R175). -/
def State.reportDue (s : State) (due : Nat) : State :=
  { s with now := max s.now due, rn := { s.rn with timer := some (max s.now due + s.rn.interval * 1000) } }

theorem State.reportExpires_of (h : P s) (due : ∀ due, P (s.reportDue due)) (transfer : ∀ u, P u → P u.transfer)
    (request : ∀ u, P u → P u.requestReport) : P s.reportExpires := by
  unfold State.reportExpires
  split
  · exact h
  refine request _ ?_
  split
  · exact due _
  · exact transfer _ (due _)

end

/-! ### The stages of a computation (R19) -/

/-- The demand, the limits and references, the stop-hold condition and the watches' counts. -/
def State.counted (s : State) : State := s.readDemand.computeTorque.evalStopHold.countWatches

/-- The stop-hold timer is all that the evaluation of its condition moves (R10). -/
theorem State.evalStopHold_rc (s : State) : s.evalStopHold.rc = { s.rc with stopHold := s.evalStopHold.rc.stopHold } := by
  unfold State.evalStopHold
  split <;> rfl

@[simp] theorem State.evalStopHold_drive (s : State) : s.evalStopHold.rc.drive = s.rc.drive := by rw [State.evalStopHold_rc]

@[simp] theorem State.enterStopping_drive (s : State) : s.enterStopping.rc.drive = .stopping := by simp [State.enterStopping]

/-- The computation but for the causes it reports. -/
def State.computed (s : State) : State := s.counted.handOff.sectorFold

theorem State.compute_eq (s : State) :
    s.compute = (s.computed.reportIf s.counted.excessFound .torqueExcess).reportIf s.counted.imbalanceFound .pinionImbalance := rfl

/-- The state in which the computation of an expiry begins: the time base at the expiry, the timer restarted (R19). -/
def State.truDue (s : State) (due : Nat) : State :=
  { s with now := max s.now due, tru := { s.tru with timer := some (max s.now due + s.tru.period) } }

theorem State.truExpires_eq {s : State} {due : Nat} (h : s.tru.timer = some due) : s.truExpires = (s.truDue due).compute := by
  unfold State.truExpires
  rw [h]
  rfl

/-- What a report and the computation without its reports keep, an expiry of the TRU period keeps. -/
theorem State.truExpires_of {P : State → Prop} {s : State} (h : P s) (report : ∀ u c, P u → P (u.report c))
    (computed : ∀ due, P (s.truDue due).computed) : P s.truExpires := by
  cases e : s.tru.timer with
  | none => unfold State.truExpires; rw [e]; exact h
  | some due =>
    rw [State.truExpires_eq e, State.compute_eq]
    exact State.reportIf_of report (State.reportIf_of report (computed due) _ _) _ _

/-- A sector fold changes the entries of the working table alone (R36). -/
theorem State.sectorFold_pt (s : State) : s.sectorFold.pt = { s.pt with table := s.sectorFold.pt.table } := by
  unfold State.sectorFold; split <;> rfl

/-- A computation changes the entries of the working table alone of the position tracker. -/
theorem State.computed_pt (s : State) : s.computed.pt = { s.pt with table := s.computed.pt.table } := by
  have before : s.counted.handOff.pt = s.pt := by simp [State.counted]
  rw [← before]
  exact State.sectorFold_pt _

/-! ### The position tracker's moves -/

/-- A boundary leaves what R86, R89, R90 and R93 say. -/
theorem PositionTracker.boundary_spec (p : PositionTracker) (kind : BoundaryKind) (becomes : Tracking) (t : Nat) :
    BoundaryLeaves kind becomes t p (p.boundary kind becomes t) := by
  refine ⟨p.endedRevolution kind t, rfl, rfl, rfl, rfl, rfl, ?_, ?_⟩
  · simp [PositionTracker.endedRevolution, PositionTracker.revolutionValid, and_assoc]
  · have taint : (becomes == .uncertain) = decide (becomes = .uncertain) := by cases becomes <;> rfl
    unfold PositionTracker.boundary PositionTracker.newTable PositionTracker.publish PositionTracker.beginPublication
    cases forward : p.forward <;> cases flight : p.inFlight <;> simp [taint, forward, flight]

/-- What the moves that a change of the source's pair can be keep, the change keeps (R80). -/
theorem PositionTracker.quadrature_of {P : PositionTracker → Prop} {p : PositionTracker} (h : P p)
    (combination : ∀ q c, P q → P { q with lastComb := some c }) (pulse : ∀ q fwd, P q → P (q.pulse fwd))
    (missed : ∀ q t, P q → P (q.missedMarker t)) (doubt : ∀ q, P q → P q.doubt) (c : Fin 4) (t : Nat) : P (p.quadrature c t) := by
  unfold PositionTracker.quadrature
  split
  · exact combination p c h
  dsimp only
  split
  · exact missed _ t (pulse _ true (combination p c h))
  split
  · exact pulse _ false (combination p c h)
  split
  · exact h
  · exact doubt _ (combination p c h)

theorem PositionTracker.boundary_source (p : PositionTracker) (kind : BoundaryKind) (becomes : Tracking) (t : Nat) :
    (p.boundary kind becomes t).source = p.source := by
  obtain ⟨ended, -, -, -, -, -, -, e⟩ := p.boundary_spec kind becomes t
  rw [e]

@[simp] theorem PositionTracker.quadrature_source (p : PositionTracker) (c : Fin 4) (t : Nat) :
    (p.quadrature c t).source = p.source := by
  refine PositionTracker.quadrature_of (P := fun q => q.source = p.source) rfl (fun _ _ h => h) (fun _ _ h => h) (fun q t h => ?_)
    (fun _ h => h) c t
  unfold PositionTracker.missedMarker
  split
  · rw [PositionTracker.boundary_source]; exact h
  · exact h

@[simp] theorem PositionTracker.marker_source (p : PositionTracker) (t : Nat) : (p.marker t).source = p.source := by
  unfold PositionTracker.marker
  dsimp only
  split <;> exact p.boundary_source _ _ t

end Sys2Proof.Machine

/-! Run control's invariant (R2, R7, R10, R13, R16, R43, R45): what it reads of the state, each operation that moves the drive, the
regulators or the isolation, and the step (O5). -/

namespace Sys2Proof.Machine

/-! ### What the invariant reads -/

/-- A regulator as run control's invariant sees it: whether it is ACTIVE, and what a BLOCKED one must hold at 0. -/
def Regulator.SameRest (r q : Regulator) : Prop :=
  r.active = q.active ∧ (q.active = false → r.acc = q.acc ∧ r.lastVcmd = q.lastVcmd)

theorem Regulator.SameRest.rfl {r : Regulator} : r.SameRest r := ⟨Eq.refl _, fun _ => ⟨Eq.refl _, Eq.refl _⟩⟩

/-- The invariant reads run control, the rest of the regulators, and the position source alone. -/
theorem State.RunInv.of_same {s t : State} (h : s.RunInv) (rc : t.rc.drive = s.rc.drive ∧ t.rc.permit = s.rc.permit ∧
      t.rc.breakAway = s.rc.breakAway ∧ t.rc.stopHold = s.rc.stopHold ∧ t.rc.isolated = s.rc.isolated)
    (reg : ∀ ch, (t.reg.get ch).SameRest (s.reg.get ch)) (source : t.pt.source = s.pt.source) : t.RunInv := by
  obtain ⟨drive, permit, breakAway, stopHold, isolated⟩ := rc
  obtain ⟨hp, hpin, active, rest, hb, hs, hi, hsrc⟩ := h
  simp only [State.permitPin] at hpin
  simp only [State.RunInv, State.permitPin, drive, permit, breakAway, stopHold, isolated, source]
  refine ⟨hp, hpin, fun ch => (reg ch).1.trans (active ch), fun ch blocked => ?_, hb, hs, hi, hsrc⟩
  obtain ⟨same, kept⟩ := reg ch
  have blocked' := same.symm.trans blocked
  rw [(kept blocked').1, (kept blocked').2]
  exact rest ch blocked'

/-- An operation that keeps run control, the regulators and the position source keeps the invariant. -/
theorem State.RunInv.of_eq {s t : State} (h : s.RunInv) (rc : t.rc = s.rc) (reg : t.reg = s.reg)
    (source : t.pt.source = s.pt.source) : t.RunInv :=
  h.of_same (by simp [rc]) (fun ch => by rw [reg]; exact .rfl) source

/-- In a drive state that is not live, with PERMIT deasserted and the timers stopped, the invariant asks that both regulators are
at rest. -/
theorem State.RunInv.of_rest {t : State} (live : t.rc.drive.live = false) (permit : t.rc.permit = false)
    (breakAway : t.rc.breakAway = none) (stopHold : t.rc.stopHold = none)
    (reg : ∀ ch, (t.reg.get ch).active = false ∧ (t.reg.get ch).acc = 0 ∧ (t.reg.get ch).lastVcmd = 0)
    (isolated : ¬(t.rc.isolated.a = true ∧ t.rc.isolated.b = true)) (source : t.pt.source = if t.rc.isolated.a then .b else .a) :
    t.RunInv := by
  have notStarting : t.rc.drive ≠ .starting := by rintro e; rw [e] at live; cases live
  refine ⟨permit.trans live.symm, permit.trans live.symm, fun ch => by rw [(reg ch).1, live, Bool.false_and],
    fun ch _ => (reg ch).2, ?_, ?_, isolated, source⟩
  · simp [breakAway, notStarting]
  · simp [stopHold]

/-! ### Trips and resets -/

theorem State.RunInv.firstCause {s : State} (h : s.RunInv) (c : Cause) : (s.firstCause c).RunInv := by
  obtain ⟨-, -, -, -, -, -, isolated, source⟩ := h
  exact .of_rest (by simp [DriveState.live]) (by simp) (by simp) (by simp) (by simp [Regulator.block]) (by simpa using isolated)
    (by simpa using source)

theorem State.RunInv.report {s : State} (h : s.RunInv) (c : Cause) : (s.report c).RunInv := by
  unfold State.report
  split
  · exact h.of_eq (by simp) (by simp) (by simp)
  · exact h.firstCause c

/-- The reset values of run control, the regulators and the position source meet the invariant. -/
theorem State.RunInv.of_reset {t : State} (rc : t.rc = {}) (reg : t.reg = ⟨{}, {}⟩) (source : t.pt.source = .a) : t.RunInv :=
  .of_rest (by simp [rc, DriveState.live]) (by simp [rc]) (by simp [rc]) (by simp [rc])
    (fun ch => by cases ch <;> simp [reg, Pair.get]) (by simp [rc]) (by simp [rc, source])

theorem State.RunInv.warmReset {s : State} (h : s.RunInv) (e : Option Nat) : (s.warmReset e).RunInv := by
  unfold State.warmReset
  split
  · exact h
  · exact .of_reset rfl rfl rfl

/-! ### Run control's own moves -/

/-- The stop-hold timer is moved in STOPPING only. -/
theorem State.RunInv.evalStopHold {s : State} (h : s.RunInv) : s.evalStopHold.RunInv := by
  unfold State.evalStopHold
  split
  case isTrue stopping =>
    obtain ⟨permit, pin, active, rest, breakAway, -, isolated, source⟩ := h
    exact ⟨permit, pin, active, rest, breakAway, fun _ => stopping, isolated, source⟩
  case isFalse => exact h

/-- A move between two live states keeps PERMIT and the regulators, and leaves STARTING with the break-away timer stopped. -/
theorem State.RunInv.of_live {s t : State} (h : s.RunInv) (before : s.rc.drive.live = true) (notStopping : s.rc.drive ≠ .stopping)
    (after : t.rc.drive.live = true) (notStarting : t.rc.drive ≠ .starting) (reg : t.reg = s.reg)
    (source : t.pt.source = s.pt.source) (rc : t.rc = { s.rc with drive := t.rc.drive, breakAway := none }) : t.RunInv := by
  obtain ⟨permit, pin, active, rest, -, stopHold, isolated, hsrc⟩ := h
  have stopped : s.rc.stopHold = none := by simpa using mt stopHold notStopping
  have hi : t.rc.isolated = s.rc.isolated := by rw [rc]
  have hp : t.rc.permit = s.rc.permit := by rw [rc]
  have hb : t.rc.breakAway = none := by rw [rc]
  have hs : t.rc.stopHold = none := by rw [rc]; exact stopped
  refine ⟨by rw [hp, permit, before, after], by rw [State.permitPin, hp, permit, before, after],
    fun ch => by rw [reg, active, before, after, hi], fun ch => by rw [reg]; exact rest ch, ?_, ?_, by rwa [hi], by rw [source, hi, hsrc]⟩
  · simp [hb, notStarting]
  · simp [hs]

theorem State.RunInv.enterStopping {s : State} (h : s.RunInv) (drive : s.rc.drive = .starting ∨ s.rc.drive = .running) :
    s.enterStopping.RunInv := by
  refine State.RunInv.evalStopHold (h.of_live ?_ ?_ rfl ?_ rfl rfl rfl) <;> rcases drive with e | e <;> simp [e, DriveState.live]

theorem State.RunInv.useSpeed {s : State} (h : s.RunInv) : s.useSpeed.RunInv := by
  unfold State.useSpeed
  split
  case h_1 starting =>
    split
    · exact h.of_live (by rw [starting]; rfl) (by simp [starting]) rfl (by simp [State.enterRunning]) rfl rfl rfl
    · exact h
  case h_2 => exact h.evalStopHold
  all_goals exact h

theorem State.RunInv.speedWindow {s : State} (h : s.RunInv) : s.speedWindow.RunInv := by
  unfold State.speedWindow
  split
  · exact h
  · exact State.RunInv.useSpeed (h.of_eq rfl rfl rfl)

/-- The break-away timer runs in STARTING only, so that its expiry is a trip. -/
theorem State.RunInv.breakAwayExpires {s : State} (h : s.RunInv) : s.breakAwayExpires.RunInv := by
  obtain ⟨-, -, -, -, breakAway, -, isolated, source⟩ := id h
  unfold State.breakAwayExpires
  split
  case h_1 => exact h
  case h_2 d running =>
    have starting : s.rc.drive = .starting := breakAway.1 (by simp [running])
    simp only [State.reportIf, State.reach_rc, starting, beq_self_eq_true, if_true, State.report, reduceCtorEq, if_false]
    exact .of_rest (by simp [DriveState.live]) (by simp) (by simp) (by simp) (by simp [Regulator.block])
      (by simpa using isolated) (by simpa using source)

theorem State.RunInv.stopHoldExpires {s : State} (h : s.RunInv) : s.stopHoldExpires.RunInv := by
  obtain ⟨-, -, -, -, breakAway, stopHold, isolated, source⟩ := id h
  unfold State.stopHoldExpires
  split
  case h_1 => exact h
  case h_2 d running =>
    have stopping : s.rc.drive = .stopping := stopHold (by simp [running])
    have noBreakAway : s.rc.breakAway = none := by simpa [stopping] using breakAway
    simp only [State.reach_rc, stopping, if_true]
    exact .of_rest rfl rfl noBreakAway rfl (fun ch => by simp [State.enterStopped, Regulator.block]) isolated source

/-! ### The orders -/

theorem State.RunInv.startRun {s : State} (h : s.RunInv) (stopped : s.rc.drive = .stopped) : s.startRun.RunInv := by
  obtain ⟨-, -, active, rest, -, -, isolated, source⟩ := h
  have blocked : ∀ ch, (s.reg.get ch).active = false := fun ch => by rw [active, stopped]; rfl
  have drive : s.startRun.rc.drive = .starting := by simp [State.startRun]
  have permit : s.startRun.rc.permit = true := by simp [State.startRun]
  have reg : ∀ ch, s.startRun.reg.get ch = if s.rc.isolated.get ch then s.reg.get ch else (s.reg.get ch).activate :=
    fun ch => by simp [State.startRun]
  have hi : s.startRun.rc.isolated = s.rc.isolated := by simp [State.startRun]
  refine ⟨by rw [permit, drive]; rfl, by rw [State.permitPin, permit, drive]; rfl, fun ch => ?_, fun ch => ?_, ?_, ?_, by rwa [hi], ?_⟩
  · rw [reg, drive, hi]
    cases e : s.rc.isolated.get ch <;> simp [blocked, Regulator.activate, DriveState.live]
  · rw [reg]
    split
    · exact rest ch
    · intro inactive; cases inactive
  · simp [State.startRun]
  · simp [State.startRun]
  · simpa [State.startRun] using source

theorem State.runRefusal_eq_none_drive {s : State} (h : s.runRefusal = none) : s.rc.drive = .stopped := by
  by_contra drive
  simp [State.runRefusal_of_drive drive] at h

theorem State.RunInv.ownRun {s : State} (h : s.RunInv) (o : Order) : (ownRun o s).1.RunInv := by
  unfold Machine.ownRun
  split
  case h_1 => exact h
  case h_2 passes => exact h.startRun (State.runRefusal_eq_none_drive passes)

theorem State.RunInv.ownStop {s : State} (h : s.RunInv) (o : Order) : (ownStop o s).1.RunInv := by
  unfold Machine.ownStop
  split
  case h_1 starting => exact h.enterStopping (.inl starting)
  case h_2 running => exact h.enterStopping (.inr running)
  all_goals exact h

/-- TRIPPED and STOPPED ask the same of the part. -/
theorem State.RunInv.ownTripReset {s : State} (h : s.RunInv) (o : Order) : (ownTripReset o s).1.RunInv := by
  unfold Machine.ownTripReset
  split
  · exact h
  case isFalse drive =>
    have tripped : s.rc.drive = .tripped := not_not.1 drive
    obtain ⟨permit, -, active, rest, breakAway, stopHold, isolated, source⟩ := id h
    have blocked : ∀ ch, (s.reg.get ch).active = false := fun ch => by rw [active, tripped]; rfl
    split
    · exact h
    split
    · exact h
    · exact .of_rest rfl (by simp [State.leaveTripped, permit, tripped, DriveState.live])
        (by simpa [State.leaveTripped, tripped] using breakAway) (by simpa [State.leaveTripped, tripped] using stopHold)
        (fun ch => ⟨blocked ch, rest ch (blocked ch)⟩) isolated source

/-- In STOPPED a channel may change its isolation, when not both become isolated. -/
theorem State.RunInv.setIsolation {s : State} (h : s.RunInv) (stopped : s.rc.drive = .stopped) (ch : Chan) (v : Bool)
    (other : v = true → s.rc.isolated.get (otherChan ch) = false) : (s.setIsolation ch v).RunInv := by
  obtain ⟨permit, -, active, rest, breakAway, stopHold, isolated, source⟩ := h
  have blocked : ∀ k, (s.reg.get k).active = false := fun k => by rw [active, stopped]; rfl
  have rc : (s.setIsolation ch v).rc = { s.rc with isolated := s.rc.isolated.set ch v } := by cases ch <;> rfl
  have reg : (s.setIsolation ch v).reg = s.reg := by cases ch <;> rfl
  refine .of_rest (by simp [rc, stopped, DriveState.live]) (by simp [rc, permit, stopped, DriveState.live])
    (by simpa [rc, stopped] using breakAway) (by simpa [rc, stopped] using stopHold)
    (fun k => by rw [reg]; exact ⟨blocked k, rest k (blocked k)⟩) ?_ ?_
  · cases ch <;> cases v <;> simp_all [Pair.set, Pair.get, otherChan]
  · cases ch
    · cases v <;> rfl
    · exact source

theorem State.RunInv.ownIsolate {s : State} (h : s.RunInv) (o : Order) : (ownIsolate o s).1.RunInv := by
  unfold Machine.ownIsolate
  split
  case h_1 ch _ =>
    split
    · exact h
    case isFalse drive =>
      split
      · exact h
      case isFalse other =>
        split
        · exact h
        · exact h.setIsolation (not_not.1 drive) ch true fun _ => by simpa using other
  all_goals exact h

theorem State.RunInv.ownRestore {s : State} (h : s.RunInv) (o : Order) : (ownRestore o s).1.RunInv := by
  unfold Machine.ownRestore
  split
  case h_1 ch _ =>
    split
    · exact h
    case isFalse drive =>
      split
      · exact h.setIsolation (not_not.1 drive) ch false (by simp)
      · exact h
  all_goals exact h

/-- New settings leave a regulator's rest as it is. -/
theorem Regulator.SameRest.modify {p : Pair Regulator} {ch : Chan} {f : Regulator → Regulator}
    (same : (f (p.get ch)).SameRest (p.get ch)) (k : Chan) : ((p.modify ch f).get k).SameRest (p.get k) := by
  rw [Pair.modify, Pair.get_set]
  split
  case isTrue e => rw [e]; exact same
  case isFalse => exact .rfl

theorem State.RunInv.setLoopOn (kp ki vlim : Nat) (s : State) (ch : Chan) (h : s.RunInv) : (setLoopOn kp ki vlim s ch).RunInv :=
  h.of_same ⟨rfl, rfl, rfl, rfl, rfl⟩ (Regulator.SameRest.modify .rfl) rfl

theorem State.RunInv.setLimitsOn (ioc lba lneg : Nat) (s : State) (ch : Chan) (h : s.RunInv) :
    (setLimitsOn ioc lba lneg s ch).RunInv :=
  h.of_same ⟨rfl, rfl, rfl, rfl, rfl⟩ (Regulator.SameRest.modify .rfl) rfl

theorem State.RunInv.ownSetLoop {s : State} (h : s.RunInv) (o : Order) : (ownSetLoop o s).1.RunInv := by
  unfold Machine.ownSetLoop
  split
  · exact h
  · exact rangeChecked_keeps h fun _ => foldl_keeps (setLoopOn _ _ _) _ h

theorem State.RunInv.ownSetLimits {s : State} (h : s.RunInv) (o : Order) : (ownSetLimits o s).1.RunInv := by
  unfold Machine.ownSetLimits
  split
  · exact h
  · exact rangeChecked_keeps h fun _ => foldl_keeps (setLimitsOn _ _ _) _ (h.of_eq rfl rfl rfl)

theorem State.RunInv.ownLoadEnvelope {s : State} (h : s.RunInv) (o : Order) : (ownLoadEnvelope o s).1.RunInv := by
  unfold Machine.ownLoadEnvelope
  split
  · exact h
  dsimp only
  split
  · exact h
  · exact h.of_same ⟨rfl, rfl, rfl, rfl, rfl⟩ (fun _ => .rfl) rfl

theorem State.RunInv.ownSetPosition {s : State} (h : s.RunInv) (o : Order) : (ownSetPosition o s).1.RunInv :=
  rangeChecked_keeps h fun _ => h.of_same ⟨rfl, rfl, rfl, rfl, rfl⟩ (fun _ => .rfl) rfl

/-- Every owner keeps run control's invariant. -/
theorem State.RunInv.owner {s : State} (h : s.RunInv) (k : OrderKind) (o : Order) : (k.owner o s).1.RunInv := by
  cases k
  case setLoop => exact h.ownSetLoop o
  case setLimits => exact h.ownSetLimits o
  case loadEnvelope => exact h.ownLoadEnvelope o
  case setPosition => exact h.ownSetPosition o
  case run => exact h.ownRun o
  case stop => exact h.ownStop o
  case tripReset => exact h.ownTripReset o
  case isolate => exact h.ownIsolate o
  case restore => exact h.ownRestore o
  case testTrip =>
    show (ownTestTrip o s).1.RunInv
    unfold ownTestTrip
    split
    · exact h.report .test
    · exact h
  all_goals exact h.of_eq (by simp [OrderKind.owner]) (by simp [OrderKind.owner]) (by simp [OrderKind.owner])

theorem State.RunInv.takeUp {s : State} (h : s.RunInv) (k : OrderKind) : (takeUp k k.owner s).RunInv :=
  takeUp_keeps h (State.RunInv.owner (s := s.countRecord) (h.of_eq rfl rfl rfl) k _) fun _ _ _ _ hu => hu.of_eq (by simp) (by simp) (by simp)

/-! ### The links and the timers of the other blocks -/

/-- An arrival moves the terms of an ACTIVE regulator only, and leaves whether a regulator is ACTIVE. -/
theorem Regulator.arrival_sameRest {r : Regulator} (rest : r.active = false → r.lastVcmd = 0) (iref imeas : Int) :
    (r.arrival iref imeas).1.SameRest r := by
  unfold Regulator.arrival
  split
  · exact ⟨rfl, fun blocked => ⟨rfl, (rest blocked).symm⟩⟩
  split
  case isTrue active => exact ⟨rfl, fun blocked => absurd active (by simp [blocked])⟩
  case isFalse => exact .rfl

theorem State.RunInv.regulated {s : State} (h : s.RunInv) (ch : Chan) (f : MeasureFrame) : (s.regulated ch f).RunInv := by
  obtain ⟨-, -, -, rest, -⟩ := id h
  have accepted : ((s.modLink ch fun l => l.accept f (s.now + s.tloss)).notifyIf (s.link.get ch).rises .link).reg = s.reg := by simp
  unfold State.regulated
  refine h.of_same (by simp) (fun k => ?_) (by simp)
  rw [State.modLink_reg, State.modReg_reg, accepted]
  exact Regulator.SameRest.modify (Regulator.arrival_sameRest (fun blocked => (rest ch blocked).2) _ _) k

theorem State.RunInv.computed {s : State} (h : s.RunInv) : s.computed.RunInv := by
  have limited : s.readDemand.computeTorque.RunInv := h.of_eq (by simp) (by simp) (by simp)
  refine limited.evalStopHold.of_eq (by simp [State.computed, State.counted]) (by simp [State.computed, State.counted]) ?_
  rw [State.computed_pt]
  simp

/-! ### The step -/

/-- Every command keeps run control's invariant. -/
theorem State.RunInv.exec {c : Instr} {s t : State} (h : s.RunInv) (hc : exec c s = .next t) : t.RunInv := by
  have kept : ∀ u : State, u.rc = s.rc → u.reg = s.reg → u.pt.source = s.pt.source → u.RunInv := fun _ => h.of_eq
  have moved : ∀ u v : State, WatchMoves u v → u.RunInv → v.RunInv := fun u v m hu =>
    hu.of_eq m.rc m.reg (by rw [m.pt])
  have report : ∀ (u : State) c, u.RunInv → (u.report c).RunInv := fun u c hu => hu.report c
  apply exec_cases (P := State.RunInv) hc
  case same => exact h
  case powerOn => exact .of_reset rfl rfl rfl
  case pinLow => exact State.pinLow_of h (kept _ rfl rfl rfl) fun _ hu => hu.warmReset none
  case control =>
    exact State.writeControl_of h report h.warmReset fun _ hu => hu.of_eq (by simp) (by simp) (by simp)
  case orders => exact h.takeUp
  case truExpires =>
    exact State.truExpires_of h report fun due => State.RunInv.computed (s := s.truDue due) (h.of_eq rfl rfl rfl)
  case breakAway => exact h.breakAwayExpires
  case stopHold => exact h.stopHoldExpires
  case speedWindow => exact h.speedWindow
  case linkFrame =>
    exact fun ch => State.linkFrame_of h report (kept _ rfl rfl rfl) (kept _ rfl rfl rfl) fun _ => h.regulated ch _
  case breakDetected => exact fun ch => State.breakDetected_of h report (kept _ rfl rfl rfl)
  case linkLoss =>
    exact fun ch => State.linkLossExpires_of h report (fun _ => kept _ rfl rfl rfl) fun _ => kept _ rfl rfl rfl
  case evaluation => exact State.evaluationEnds_of h report moved
  case sampleFrame => exact fun f => moved s _ (s.sampleFrame_moves f) h
  case portLoss => exact moved s _ s.portLossExpires_moves h
  case filter => exact State.externalExpires_of h report fun _ => kept _ rfl rfl rfl
  case endInit => exact kept _ (by simp) (by simp) (by unfold State.endInit; split <;> rfl)
  case publication =>
    refine kept _ (by simp) (by simp) ?_
    unfold State.completePublication
    (repeat' split) <;> rfl
  all_goals intros; exact kept _ (by simp) (by simp) (by simp)

/-- Settles O5. -/
theorem stepKeepsRunControl : Obligations.StepKeepsRunControl := by
  intro s t h hs
  exact step_keeps (P := State.RunInv) (fun s rest h => h.of_eq rfl rfl rfl) (fun s h => h.of_eq rfl rfl rfl)
    (fun c s t h hc => h.exec hc) h hs

end Sys2Proof.Machine

/-! The invariant of the trip unit and the capture (R129 to R134, R141, R150, R151): what it reads of the state, the reports of
causes, the hand-off of a snapshot with the cause window, and the step (O6). -/

namespace Sys2Proof.Machine

/-! ### What the invariant reads -/

/-- Two trip units alike but for the external input and its filter. -/
def TripUnit.SameTrip (a b : TripUnit) : Prop :=
  a = { b with extRaw := a.extRaw, extFiltered := a.extFiltered, extTimer := a.extTimer }

/-- Two record captures alike in the capture, its copy and its post count. -/
def RecordCapture.SameCapture (a b : RecordCapture) : Prop :=
  a.capture = b.capture ∧ a.copy = b.copy ∧ a.postCount = b.postCount

/-- The invariant asks of the drive state only whether it is TRIPPED. -/
theorem State.TripInv.of_same {s t : State} (h : s.TripInv) (drive : t.rc.drive = .tripped ↔ s.rc.drive = .tripped)
    (tu : t.tu.SameTrip s.tu) (rcu : t.rcu.SameCapture s.rcu) : t.TripInv := by
  obtain ⟨capture, copy, post⟩ := rcu
  unfold State.TripInv at h ⊢
  rw [tu, capture, copy, post]
  simpa only [drive, ne_eq] using h

theorem State.TripInv.of_eq {s t : State} (h : s.TripInv) (rc : t.rc = s.rc) (tu : t.tu = s.tu) (rcu : t.rcu = s.rcu) : t.TripInv :=
  h.of_same (by rw [rc]) (by rw [tu]; rfl) (by rw [rcu]; exact ⟨rfl, rfl, rfl⟩)

/-- A move between two drive states that are not TRIPPED. -/
theorem State.TripInv.of_drive {s t : State} (h : s.TripInv) (before : s.rc.drive ≠ .tripped) (after : t.rc.drive ≠ .tripped)
    (tu : t.tu = s.tu) (rcu : t.rcu = s.rcu) : t.TripInv :=
  h.of_same (by simp [before, after]) (by rw [tu]; rfl) (by rw [rcu]; exact ⟨rfl, rfl, rfl⟩)

/-- Outside TRIPPED the window is CLOSED, and no capture is in progress. -/
theorem State.TripInv.closed {s : State} (h : s.TripInv) (drive : s.rc.drive ≠ .tripped) :
    s.tu.window = none ∧ s.rcu.capture = none ∧ s.rcu.copy = none := by
  obtain ⟨-, -, -, -, -, -, window, -, -, -, -, capture, copy⟩ := h
  have noWindow : s.tu.window = none := Option.eq_none_iff_forall_ne_some.2 fun n e => drive (window n e).2.1
  have noCapture : s.rcu.capture = none := by
    rw [noWindow] at capture
    simpa using capture
  exact ⟨noWindow, noCapture, by simpa [noCapture] using copy⟩

/-! ### Reports of causes -/

/-- The next index goes on with the trip count, modulo 32 (R130). -/
theorem nextIndex_succ {i : Fin 32} {n : Nat} (h : i.val = n % 32) : (i + 1).val = (n + 1) % 4294967296 % 32 := by
  rw [Fin.val_add]
  simp only [Fin.val_one]
  omega

theorem State.TripInv.firstCause {s : State} (h : s.TripInv) (drive : s.rc.drive ≠ .tripped) (c : Cause) :
    (s.firstCause c).TripInv := by
  obtain ⟨-, noCapture, noCopy⟩ := h.closed drive
  obtain ⟨-, -, -, -, -, -, -, -, -, -, index, -, -⟩ := h
  obtain ⟨job, rcu⟩ := s.firstCause_rcu c
  simp only [State.TripInv, State.firstCause_rc, State.firstCause_tu, rcu]
  refine ⟨by simp, by simp, by simp, by simp, by simp, by simp, by simp, by simp, by simp, ?_, nextIndex_succ index, ?_, ?_⟩
  · exact Nat.mod_lt _ (by decide)
  · cases s.chooseSlot <;> simp [noCapture]
  · cases s.chooseSlot <;> simp [noCapture, noCopy]

/-- A list that gains a new element at its end, when it lacks it. -/
theorem nodup_concat {α : Type} {l : List α} {x : α} (h : l.Nodup) (new : x ∉ l) : (l ++ [x]).Nodup := by
  rw [List.nodup_append]
  exact ⟨h, by simp, fun a ha b hb e => new (by rw [List.mem_singleton.1 hb] at e; exact e ▸ ha)⟩

theorem State.TripInv.furtherCause {s : State} (h : s.TripInv) (drive : s.rc.drive = .tripped) (c : Cause) :
    (s.furtherCause c).TripInv := by
  obtain ⟨latched, firstOut, first, nodup, listNodup, listLength, window, entry, below, count, index, capture, copy⟩ := h
  have grown : (s.furtherCause c).tu.latched = if s.tu.latched.contains c then s.tu.latched else s.tu.latched ++ [c] := rfl
  have mem : ∀ d, d ∈ (s.furtherCause c).tu.latched ↔ d ∈ s.tu.latched ∨ d = c := by
    intro d
    rw [grown]
    split
    case isTrue held =>
      have : c ∈ s.tu.latched := by simpa using held
      exact ⟨.inl, fun hd => hd.elim id fun e => e ▸ this⟩
    case isFalse => simp
  have ne : (s.furtherCause c).tu.latched ≠ [] := List.ne_nil_of_mem ((mem c).2 (.inr rfl))
  have nodup' : (s.furtherCause c).tu.latched.Nodup := by
    rw [grown]
    split
    · exact nodup
    case isFalse new => exact nodup_concat nodup (by simpa using new)
  have list : (s.furtherCause c).tu.causeList = s.tu.causeList ∨
      (s.furtherCause c).tu.causeList = s.tu.causeList ++ [c] ∧ c ∉ s.tu.causeList ∧ s.tu.causeList.length < 8 := by
    simp only [State.furtherCause]
    split
    case isTrue lists =>
      simp only [Bool.and_eq_true, Bool.not_eq_true', decide_eq_true_eq, List.contains_eq_mem, decide_eq_false_iff_not] at lists
      exact .inr ⟨rfl, lists.1.2, lists.2⟩
    case isFalse => exact .inl rfl
  refine ⟨iff_of_false ne (by simp [drive]), firstOut, fun d hd => (mem d).2 (.inl (first d hd)), nodup', ?_, ?_, ?_, entry, below,
    count, index, capture, copy⟩
  · rcases list with e | ⟨e, new, -⟩ <;> rw [e]
    exacts [listNodup, nodup_concat listNodup new]
  · rcases list with e | ⟨e, -, room⟩ <;> rw [e]
    · exact listLength
    · rw [List.length_append, List.length_singleton]; omega
  · intro n hn
    obtain ⟨bound, tripped, head, listed⟩ := window n hn
    have some : s.tu.firstOut.isSome = true := firstOut.2 drive
    refine ⟨bound, tripped, ?_, ?_⟩
    · have sameHead : (s.furtherCause c).tu.causeList.head? = s.tu.causeList.head? := by
        rcases list with e | ⟨e, -, -⟩ <;> rw [e]
        rw [List.head?_append, Option.or_of_isSome (by rw [head]; exact some)]
      exact sameHead.trans head
    · intro d hd
      rcases list with e | ⟨e, -, -⟩ <;> rw [e] at hd
      · exact (mem d).2 (.inl (listed d hd))
      · rcases List.mem_append.1 hd with hd | hd
        · exact (mem d).2 (.inl (listed d hd))
        · exact (mem d).2 (.inr (List.mem_singleton.1 hd))

theorem State.TripInv.report {s : State} (h : s.TripInv) (c : Cause) : (s.report c).TripInv := by
  unfold State.report
  split
  case isTrue drive => exact h.furtherCause drive c
  case isFalse drive => exact h.firstCause drive c

/-! ### Resets -/

/-- What a reset leaves: nothing latched, the window CLOSED, no capture, the trip count and the next index as they are given. -/
theorem State.TripInv.of_reset {t : State} (drive : t.rc.drive = .stopped)
    (tu : t.tu.SameTrip { nextIndex := t.tu.nextIndex, tripCount := t.tu.tripCount }) (rcu : t.rcu = {})
    (count : t.tu.tripCount < 4294967296) (index : t.tu.nextIndex.val = t.tu.tripCount % 32) : t.TripInv := by
  unfold State.TripInv
  rw [drive, rcu]
  have same := fun (α : Type) (f : TripUnit → α) => congrArg f tu
  rw [same _ TripUnit.latched, same _ TripUnit.firstOut, same _ TripUnit.window, same _ TripUnit.causeList,
    same _ TripUnit.openEntry]
  simp [count, index]

theorem State.TripInv.warmReset {s : State} (h : s.TripInv) (e : Option Nat) : (s.warmReset e).TripInv := by
  unfold State.warmReset
  split
  · exact h
  · obtain ⟨-, -, -, -, -, -, -, -, -, count, index, -, -⟩ := h
    exact .of_reset rfl rfl rfl count index

/-! ### Run control -/

theorem State.TripInv.speedWindow {s : State} (h : s.TripInv) : s.speedWindow.TripInv := by
  have used : ∀ u : State, u.TripInv → u.useSpeed.TripInv := by
    intro u hu
    unfold State.useSpeed
    split
    case h_1 starting =>
      split
      · exact hu.of_drive (by simp [starting]) (by simp [State.enterRunning]) rfl rfl
      · exact hu
    case h_2 =>
      exact hu.of_same (by rw [State.evalStopHold_drive]) (by simp [TripUnit.SameTrip]) (by simp [RecordCapture.SameCapture])
    all_goals exact hu
  unfold State.speedWindow
  split
  · exact h
  · exact used _ (h.of_eq rfl rfl rfl)

theorem State.TripInv.stopHoldExpires {s : State} (h : s.TripInv) : s.stopHoldExpires.TripInv := by
  unfold State.stopHoldExpires
  split
  · exact h
  dsimp only
  split
  case isTrue stopping => exact h.of_drive (by simp_all) (by simp [State.enterStopped]) rfl rfl
  case isFalse => exact h.of_same Iff.rfl rfl ⟨rfl, rfl, rfl⟩

/-! ### The orders -/

theorem State.TripInv.ownTripReset {s : State} (h : s.TripInv) (o : Order) : (ownTripReset o s).1.TripInv := by
  unfold Machine.ownTripReset
  split
  · exact h
  split
  · exact h
  case h_2 closed =>
    split
    · exact h
    · obtain ⟨-, -, -, -, listNodup, listLength, -, entry, below, count, index, capture, copy⟩ := h
      exact ⟨by simp [State.leaveTripped], by simp [State.leaveTripped], by simp, by simp, listNodup, listLength,
        fun n hn => by simp [closed] at hn, entry, below, count, index, capture, copy⟩

/-- Every owner keeps the invariant of the trip unit. -/
theorem State.TripInv.owner {s : State} (h : s.TripInv) (k : OrderKind) (o : Order) : (k.owner o s).1.TripInv := by
  have moved : ∀ u : State, u.rc.drive = s.rc.drive → u.tu = s.tu → u.rcu = s.rcu → u.TripInv := fun u drive tu rcu =>
    h.of_same (by rw [drive]) (by rw [tu]; rfl) (by rw [rcu]; exact ⟨rfl, rfl, rfl⟩)
  cases k
  case tripReset => exact h.ownTripReset o
  case testTrip =>
    show (ownTestTrip o s).1.TripInv
    unfold ownTestTrip
    split
    · exact h.report .test
    · exact h
  case run =>
    show (ownRun o s).1.TripInv
    unfold ownRun
    split
    · exact h
    case h_2 passes =>
      exact h.of_drive (by simp [State.runRefusal_eq_none_drive passes]) (by simp [State.startRun]) (by simp [State.startRun])
        (by simp [State.startRun])
  case stop =>
    show (ownStop o s).1.TripInv
    unfold ownStop
    split
    case h_1 starting => exact h.of_drive (by simp [starting]) (by simp) (by simp) (by simp)
    case h_2 running => exact h.of_drive (by simp [running]) (by simp) (by simp) (by simp)
    all_goals exact h
  all_goals
    exact moved _ (OrderKind.owner_drive (by simp) (by simp) (by simp) (by simp) o s) (by simp [OrderKind.owner])
      (by simp [OrderKind.owner])

theorem State.TripInv.takeUp {s : State} (h : s.TripInv) (k : OrderKind) : (takeUp k k.owner s).TripInv :=
  takeUp_keeps h (State.TripInv.owner (s := s.countRecord) (h.of_eq rfl rfl rfl) k _) fun _ _ _ _ hu =>
    hu.of_eq (by simp) (by simp) (by simp)

/-! ### The hand-off of a snapshot and the cause window (R133, R134, R150 to R152) -/

/-- A completed copy is no longer in flight (R150). -/
theorem State.completeCopy_rcu (s : State) :
    s.completeCopy.rcu = { s.rcu with copy := if s.rcu.capture.isSome then none else s.rcu.copy } := by
  unfold State.completeCopy
  split
  case h_1 n j capture copy => simp [State.writePostCount, capture]
  case h_2 idle =>
    split
    case isTrue filling =>
      obtain ⟨n, capture⟩ := Option.isSome_iff_exists.1 filling
      have noCopy : s.rcu.copy = none := Option.eq_none_iff_forall_ne_some.2 fun j copy => idle n j capture copy
      rw [← noCopy]
    case isFalse => rfl

/-- A snapshot appended to a slot advances the post count (R151). -/
theorem State.appendSnapshot_rcu (s : State) (x : Snapshot) :
    (s.appendSnapshot x).rcu =
      { s.rcu with postCount := if s.rcu.capture.isSome then s.rcu.postCount + 1 else s.rcu.postCount } := by
  unfold State.appendSnapshot
  split
  case h_1 capture => rw [capture]; rfl
  case h_2 n capture =>
    simp only [capture, Option.isSome_some, if_true]
    split <;> rfl

/-- A completed record leaves no capture and no copy (R152). -/
theorem State.completeRecord_rcu (s : State) :
    s.completeRecord.rcu = { s.rcu with capture := none, copy := if s.rcu.capture.isSome then none else s.rcu.copy } := by
  unfold State.completeRecord
  split
  case h_1 capture =>
    simp only [capture, Option.isSome_none, Bool.false_eq_true, if_false]
    rw [← capture]
  case h_2 n capture => simp [State.completeCopy_rcu, capture]

/-- A window that closes leaves no open entry, no capture and no copy (R134, R152). -/
theorem State.closeWindow_rcu (s : State) :
    s.closeWindow.rcu = { s.rcu with capture := none, copy := if s.rcu.capture.isSome then none else s.rcu.copy } := by
  simp only [State.closeWindow, State.completeRecord_rcu, State.closeEntry_keeps]

theorem State.closeWindow_tu (s : State) : s.closeWindow.tu = { s.tu with window := none, openEntry := none } := by
  simp [State.closeWindow]

/-- The window counts the computation for which a snapshot has been appended: the post count of a capture keeps in step with it. -/
theorem State.TripInv.handOff {s : State} (h : s.TripInv) : s.handOff.TripInv := by
  have countAhead : ∀ u : State, u.rc = s.rc → u.tu = s.tu →
      u.rcu.SameCapture { s.rcu with postCount := if s.rcu.capture.isSome then s.rcu.postCount + 1 else s.rcu.postCount } →
      u.countWindow.TripInv := by
    obtain ⟨latched, firstOut, first, nodup, listNodup, listLength, window, entry, below, count, index, capture, copy⟩ := h
    rintro u rc tu ⟨sameCapture, sameCopy, post⟩
    simp only at sameCapture sameCopy post
    unfold State.countWindow
    rw [tu]
    split
    case h_1 closed =>
      have noCapture : s.rcu.capture = none := by simpa [closed] using capture
      unfold State.TripInv
      rw [rc, tu, sameCapture, sameCopy]
      exact ⟨latched, firstOut, first, nodup, listNodup, listLength, window, entry, below, count, index, by simp [noCapture], copy⟩
    case h_2 n opened =>
      obtain ⟨bound, tripped, head, listed⟩ := window n opened
      split
      case isTrue full =>
        have rc' : u.closeWindow.rc = s.rc := by simp [rc]
        unfold State.TripInv
        rw [rc', u.closeWindow_tu, u.closeWindow_rcu, tu, sameCapture, sameCopy]
        refine ⟨latched, firstOut, first, nodup, listNodup, listLength, by simp, rfl, by simp, count, index, by simp, ?_⟩
        cases e : s.rcu.capture <;> simp_all
      case isFalse more =>
        have next : n + 1 ≤ 23 := by simp only [Config.windowPeriods] at more; omega
        unfold State.TripInv
        simp only [rc, sameCapture, sameCopy, post]
        refine ⟨latched, firstOut, first, nodup, listNodup, listLength, ?_, ?_, below, count, index, ?_, copy⟩
        · intro m hm
          obtain rfl : n + 1 = m := by simpa using hm
          exact ⟨next, tripped, head, listed⟩
        · simpa [opened] using entry
        · intro filling
          have inStep := capture filling
          rw [opened, Option.some.injEq] at inStep
          simp [filling, inStep]
  refine countAhead _ (by simp) (by simp) ?_
  rw [State.appendSnapshot_rcu]
  exact ⟨rfl, rfl, rfl⟩

theorem State.TripInv.computed {s : State} (h : s.TripInv) : s.computed.TripInv := by
  have counted : s.counted.TripInv :=
    h.of_same (by simp [State.counted]) (by simp [State.counted, TripUnit.SameTrip])
      (by simp [State.counted, RecordCapture.SameCapture])
  exact counted.handOff.of_eq (by simp [State.computed]) (by simp [State.computed]) (by simp [State.computed])

/-! ### The step -/

theorem State.TripInv.completeCopy {s : State} (h : s.TripInv) : s.completeCopy.TripInv := by
  obtain ⟨latched, firstOut, first, nodup, listNodup, listLength, window, entry, below, count, index, capture, copy⟩ := h
  unfold State.TripInv
  rw [State.completeCopy_rcu]
  simp only [State.completeCopy_keeps]
  refine ⟨latched, firstOut, first, nodup, listNodup, listLength, window, entry, below, count, index, capture, ?_⟩
  cases e : s.rcu.capture <;> simp_all

/-- Every command keeps the invariant of the trip unit. -/
theorem State.TripInv.exec {c : Instr} {s t : State} (h : s.TripInv) (hc : exec c s = .next t) : t.TripInv := by
  have kept : ∀ u : State, u.rc = s.rc → u.tu = s.tu → u.rcu = s.rcu → u.TripInv := fun _ => h.of_eq
  have moved : ∀ u v : State, WatchMoves u v → u.TripInv → v.TripInv := fun u v m hu => hu.of_eq m.rc m.tu m.rcu
  have report : ∀ (u : State) c, u.TripInv → (u.report c).TripInv := fun u c hu => hu.report c
  apply exec_cases (P := State.TripInv) hc
  case same => exact h
  case powerOn => exact .of_reset rfl rfl rfl Nat.ofNat_pos rfl
  case pinLow => exact State.pinLow_of h (kept _ rfl rfl rfl) fun _ hu => hu.warmReset none
  case control =>
    exact State.writeControl_of h report h.warmReset fun _ hu => hu.of_eq (by simp) (by simp) (by simp)
  case orders => exact h.takeUp
  case truExpires =>
    exact State.truExpires_of h report fun due => State.TripInv.computed (s := s.truDue due) (h.of_eq rfl rfl rfl)
  case breakAway => exact State.breakAwayExpires_of h report fun _ => h.of_same Iff.rfl rfl ⟨rfl, rfl, rfl⟩
  case stopHold => exact h.stopHoldExpires
  case speedWindow => exact h.speedWindow
  case linkFrame =>
    exact fun ch => State.linkFrame_of h report (kept _ rfl rfl rfl) (kept _ rfl rfl rfl) fun _ =>
      kept _ (by simp [State.regulated]) (by simp [State.regulated]) (by simp [State.regulated])
  case breakDetected => exact fun ch => State.breakDetected_of h report (kept _ rfl rfl rfl)
  case linkLoss =>
    exact fun ch => State.linkLossExpires_of h report (fun _ => kept _ rfl rfl rfl) fun _ => kept _ rfl rfl rfl
  case evaluation => exact State.evaluationEnds_of h report moved
  case sampleFrame => exact fun f => moved s _ (s.sampleFrame_moves f) h
  case portLoss => exact moved s _ s.portLossExpires_moves h
  case copy => exact h.completeCopy
  case external =>
    intro l
    unfold State.externalChanges
    split
    · exact h
    · exact h.of_same Iff.rfl rfl ⟨rfl, rfl, rfl⟩
  case filter => exact State.externalExpires_of h report fun _ => h.of_same Iff.rfl rfl ⟨rfl, rfl, rfl⟩
  case endInit =>
    unfold State.endInit
    split
    · exact h
    · exact h.of_same Iff.rfl rfl ⟨rfl, rfl, rfl⟩
  all_goals intros; exact kept _ (by simp) (by simp) (by simp)

/-- Settles O6. -/
theorem stepKeepsTripUnit : Obligations.StepKeepsTripUnit := by
  intro s t h hs
  exact step_keeps (P := State.TripInv) (fun s rest h => h.of_eq rfl rfl rfl) (fun s h => h.of_eq rfl rfl rfl)
    (fun c s t h hc => h.exec hc) h hs

end Sys2Proof.Machine

/-! The invariant of the torque reference unit (R10, R23 to R31, R34): what it asks beside run control's, the computation of limits,
Tcmd and references, each operation that moves a drive state or a torque value, and the step (O7). -/

namespace Sys2Proof.Machine

/-! ### What the invariant reads -/

/-- What the torque invariant asks beside run control's. -/
def State.TorqueRest (s : State) : Prop :=
  (∀ ch, 0 ≤ s.tru.lim.get ch ∧ 0 ≤ s.tru.lneg.get ch ∧
    -(s.tru.lneg.get ch) ≤ s.tru.iref.get ch ∧ s.tru.iref.get ch ≤ s.tru.lim.get ch) ∧
  s.tru.iref.a + s.tru.iref.b = s.tru.tcmd ∧
  (s.tru.tcmd = 0 → s.tru.iref = ⟨0, 0⟩) ∧
  (s.rc.drive.live = false → s.tru.tcmd = 0 ∧ s.tru.excessCount = 0 ∧ s.tru.imbCount = 0) ∧
  (s.rc.stopHold.isSome = true → s.tru.tcmd = 0) ∧
  s.tru.envelope.Pairwise (fun x y => x.1 < y.1)

theorem State.torqueInv_iff (s : State) : s.TorqueInv ↔ s.RunInv ∧ s.TorqueRest := Iff.rfl

/-- Two torque units alike in limits, Tcmd, references, watch counts and envelope. -/
def TorqueUnit.SameTorque (a b : TorqueUnit) : Prop :=
  a.lim = b.lim ∧ a.lneg = b.lneg ∧ a.iref = b.iref ∧ a.tcmd = b.tcmd ∧ a.excessCount = b.excessCount ∧
  a.imbCount = b.imbCount ∧ a.envelope = b.envelope

theorem TorqueUnit.SameTorque.rfl {a : TorqueUnit} : a.SameTorque a := by simp [TorqueUnit.SameTorque]

/-- The rest of the invariant asks of the drive state only whether it is live, and of the stop-hold timer that Tcmd be 0 while it
runs. -/
theorem State.TorqueRest.of_same {s t : State} (h : s.TorqueRest) (tru : t.tru.SameTorque s.tru)
    (live : t.rc.drive.live = false → s.rc.drive.live = false ∨ s.tru.tcmd = 0 ∧ s.tru.excessCount = 0 ∧ s.tru.imbCount = 0)
    (stopHold : t.rc.stopHold.isSome = true → s.rc.stopHold.isSome = true ∨ s.tru.tcmd = 0) : t.TorqueRest := by
  obtain ⟨lim, lneg, iref, tcmd, excess, imb, envelope⟩ := tru
  obtain ⟨limits, sum, zero, rest, hold, ascending⟩ := h
  unfold State.TorqueRest
  rw [lim, lneg, iref, tcmd, excess, imb, envelope]
  exact ⟨limits, sum, zero, fun l => (live l).elim rest id, fun r => (stopHold r).elim hold id, ascending⟩

theorem State.TorqueRest.of_eq {s t : State} (h : s.TorqueRest) (rc : t.rc = s.rc) (tru : t.tru = s.tru) : t.TorqueRest :=
  h.of_same (by rw [tru]; exact .rfl) (fun l => .inl (by rwa [rc] at l)) fun r => .inl (by rwa [rc] at r)

/-! ### Trips and resets -/

theorem State.TorqueRest.report {s : State} (h : s.TorqueRest) (c : Cause) : (s.report c).TorqueRest := by
  unfold State.report
  split
  · exact h.of_eq (by simp) (by simp)
  · obtain ⟨limits, -, -, -, -, ascending⟩ := h
    refine ⟨fun ch => ?_, ?_, ?_, ?_, ?_, ?_⟩
    · obtain ⟨pos, neg, -, -⟩ := limits ch
      have zero : (Pair.mk (0 : Int) 0).get ch = 0 := by cases ch <;> rfl
      simp [zero, pos, neg]
    all_goals simp [ascending]

/-- The reset values of run control and the torque unit meet the invariant. -/
theorem State.TorqueRest.of_reset {t : State} (rc : t.rc = {}) (tru : t.tru = {}) : t.TorqueRest := by
  unfold State.TorqueRest
  rw [rc, tru]
  refine ⟨fun ch => by cases ch <;> simp [Pair.get], by simp, by simp, by simp, by simp, by simp⟩

theorem State.TorqueRest.warmReset {s : State} (h : s.TorqueRest) (e : Option Nat) : (s.warmReset e).TorqueRest := by
  unfold State.warmReset
  split
  · exact h
  · exact .of_reset rfl rfl

/-! ### Run control -/

/-- In STOPPING the stop-hold timer runs behind an evaluation only while Tcmd is 0 (R10). -/
theorem State.evalStopHold_tcmd {s : State} (stopping : s.rc.drive = .stopping) (runs : s.evalStopHold.rc.stopHold.isSome = true) :
    s.tru.tcmd = 0 := by
  unfold State.evalStopHold at runs
  rw [if_pos stopping] at runs
  by_contra moving
  simp [State.holdCondition, moving] at runs

theorem State.TorqueRest.evalStopHold {s : State} (h : s.TorqueRest) : s.evalStopHold.TorqueRest := by
  by_cases stopping : s.rc.drive = .stopping
  · exact h.of_same (by simp [TorqueUnit.SameTorque]) (fun l => .inl (by simpa using l)) fun r =>
      .inr (State.evalStopHold_tcmd stopping r)
  · rw [show s.evalStopHold = s from if_neg stopping]
    exact h

/-- A move between two live drive states that stops no running timer but the break-away timer. -/
theorem State.TorqueRest.of_live {s t : State} (h : s.TorqueRest) (after : t.rc.drive.live = true)
    (stopHold : t.rc.stopHold = s.rc.stopHold) (tru : t.tru = s.tru) : t.TorqueRest :=
  h.of_same (by rw [tru]; exact .rfl) (fun l => by rw [after] at l; cases l) fun r => .inl (by rwa [stopHold] at r)

theorem State.TorqueRest.enterStopping {s : State} (h : s.TorqueRest) : s.enterStopping.TorqueRest := by
  unfold State.enterStopping
  exact State.TorqueRest.evalStopHold (h.of_live rfl rfl rfl)

theorem State.TorqueRest.useSpeed {s : State} (h : s.TorqueRest) : s.useSpeed.TorqueRest := by
  unfold State.useSpeed
  split
  · split
    · exact h.of_live rfl rfl rfl
    · exact h
  · exact h.evalStopHold
  all_goals exact h

theorem State.TorqueRest.speedWindow {s : State} (h : s.TorqueRest) : s.speedWindow.TorqueRest := by
  unfold State.speedWindow
  split
  · exact h
  · exact State.TorqueRest.useSpeed (h.of_eq rfl rfl)

/-- The stop-hold timer runs while Tcmd is 0 only, so that the drive comes to rest with Tcmd 0. -/
theorem State.TorqueRest.stopHoldExpires {s : State} (h : s.TorqueRest) : s.stopHoldExpires.TorqueRest := by
  unfold State.stopHoldExpires
  split
  · exact h
  case h_2 d running =>
    obtain ⟨limits, sum, zero, -, hold, ascending⟩ := id h
    have rest : s.tru.tcmd = 0 := hold (by simp [running])
    dsimp only
    split
    · exact ⟨limits, sum, zero, fun _ => ⟨rest, rfl, rfl⟩, fun _ => rest, ascending⟩
    · exact h.of_same .rfl .inl fun r => by cases r

/-! ### The orders -/

/-- A table in which no breakpoint is bad has ascending speeds, above the one before it (R40). -/
theorem badPoint_ascending {points : List (Nat × Nat)} {i : Nat} {prev : Option Nat} (good : badPoint i prev points = none) :
    points.Pairwise (fun x y => x.1 < y.1) ∧ ∀ q, prev = some q → ∀ p ∈ points, q < p.1 := by
  induction points generalizing i prev with
  | nil => simp
  | cons p rest ih =>
    obtain ⟨x, l⟩ := p
    have above : (∀ q, prev = some q → q < x) ∧ badPoint (i + 1) (some x) rest = none := by
      simp only [badPoint] at good
      split at good
      · cases good
      split at good
      · split at good
        · cases good
        case isFalse ascent => exact ⟨fun q e => by cases e; exact not_le.1 ascent, good⟩
      · exact ⟨fun q e => (by cases e), good⟩
    obtain ⟨tail, lower⟩ := ih above.2
    refine ⟨List.pairwise_cons.2 ⟨lower x rfl, tail⟩, fun q e p hp => ?_⟩
    rcases List.mem_cons.1 hp with rfl | hp
    · exact above.1 q e
    · exact (above.1 q e).trans (lower x rfl p hp)

theorem State.TorqueRest.ownLoadEnvelope {s : State} (h : s.TorqueRest) (o : Order) : (ownLoadEnvelope o s).1.TorqueRest := by
  unfold Machine.ownLoadEnvelope
  split
  · exact h
  dsimp only
  split
  · exact h
  case h_2 good =>
    obtain ⟨limits, sum, zero, rest, hold, -⟩ := h
    exact ⟨limits, sum, zero, rest, hold, (badPoint_ascending good).1⟩

theorem State.TorqueRest.setLimitsOn (ioc lba lneg : Nat) (s : State) (ch : Chan) (h : s.TorqueRest) :
    (setLimitsOn ioc lba lneg s ch).TorqueRest :=
  h.of_same .rfl .inl .inl

theorem State.TorqueRest.setLoopOn (kp ki vlim : Nat) (s : State) (ch : Chan) (h : s.TorqueRest) :
    (setLoopOn kp ki vlim s ch).TorqueRest :=
  h.of_same .rfl .inl .inl

/-- Every owner keeps the rest of the torque invariant. -/
theorem State.TorqueRest.owner {s : State} (h : s.TorqueRest) (k : OrderKind) (o : Order) : (k.owner o s).1.TorqueRest := by
  cases k
  case setLoop =>
    show (ownSetLoop o s).1.TorqueRest
    unfold ownSetLoop
    split
    · exact h
    · exact rangeChecked_keeps h fun _ => foldl_keeps (setLoopOn _ _ _) _ h
  case setLimits =>
    show (ownSetLimits o s).1.TorqueRest
    unfold ownSetLimits
    split
    · exact h
    · refine rangeChecked_keeps h fun _ => foldl_keeps (setLimitsOn _ _ _) _ ?_
      exact h.of_same .rfl .inl .inl
  case loadEnvelope => exact h.ownLoadEnvelope o
  case setShare => exact rangeChecked_keeps h fun _ => h.of_same .rfl .inl .inl
  case setReference => exact rangeChecked_keeps h fun _ => h.of_same .rfl .inl .inl
  case setPosition => exact rangeChecked_keeps h fun _ => h.of_same .rfl .inl .inl
  case run =>
    show (ownRun o s).1.TorqueRest
    unfold ownRun
    split
    · exact h
    · exact h.of_same (by simp [State.startRun, TorqueUnit.SameTorque]) (by simp [State.startRun, DriveState.live])
        (by simp [State.startRun])
  case stop =>
    show (ownStop o s).1.TorqueRest
    unfold ownStop
    split
    · exact h.enterStopping
    · exact h.enterStopping
    all_goals exact h
  case tripReset =>
    show (ownTripReset o s).1.TorqueRest
    unfold ownTripReset
    split
    · exact h
    case isFalse tripped =>
      have atRest : s.rc.drive.live = false := by rw [not_not.1 tripped]; rfl
      split
      · exact h
      split
      · exact h
      · exact h.of_same .rfl (fun _ => .inl atRest) .inl
  case isolate =>
    show (ownIsolate o s).1.TorqueRest
    unfold ownIsolate State.setIsolation
    (repeat' split) <;> exact h
  case restore =>
    show (ownRestore o s).1.TorqueRest
    unfold ownRestore State.setIsolation
    (repeat' split) <;> exact h
  case testTrip =>
    show (ownTestTrip o s).1.TorqueRest
    unfold ownTestTrip
    split
    · exact h.report .test
    · exact h
  case transferCounts =>
    exact h.of_same (by simp [OrderKind.owner, ownTransferCounts, State.transfer, State.zeroLiveCounts, TorqueUnit.SameTorque])
      (fun l => .inl (by simpa [OrderKind.owner, ownTransferCounts] using l))
      fun r => .inl (by simpa [OrderKind.owner, ownTransferCounts] using r)
  all_goals exact h.of_eq (by simp [OrderKind.owner]) (by simp [OrderKind.owner])

/-- Every take-up keeps the rest of the torque invariant. -/
theorem State.TorqueRest.takeUp {s : State} (h : s.TorqueRest) (k : OrderKind) : (Machine.takeUp k k.owner s).TorqueRest :=
  takeUp_keeps h (State.TorqueRest.owner (s := s.countRecord) (h.of_eq (by simp) (by simp)) k s.recordOrder)
    fun u off hd r hu => hu.of_eq (by simp) (by simp)

/-! ### The computation -/

/-- A limit from a base that is not negative is not negative (R25, R26). -/
theorem State.effectiveLimit_nonneg (s : State) (ch : Chan) {base : Int} (h : 0 ≤ base) : 0 ≤ s.effectiveLimit ch base := by
  have capped : 0 ≤ min base ((s.link.get ch).iavail : Int) := by omega
  unfold State.effectiveLimit
  dsimp only
  split
  · exact le_rfl
  split
  · exact capped
  · exact Int.ediv_nonneg (Int.mul_nonneg capped (by omega)) (by omega)

/-- The limits are not negative, the envelope's speeds ascending (R23, R24). -/
theorem State.positiveLimits_nonneg {s : State} (ascending : s.tru.envelope.Pairwise fun x y => x.1 < y.1) (ch : Chan) :
    0 ≤ s.positiveLimits.get ch := by
  rw [State.positiveLimits, Pair.get_build]
  refine s.effectiveLimit_nonneg ch ?_
  unfold State.positiveBase
  split
  · omega
  · exact envelopeValue_nonneg _ _ ascending

theorem State.holdbackLimits_nonneg (s : State) (ch : Chan) : 0 ≤ s.holdbackLimits.get ch := by
  rw [State.holdbackLimits, Pair.get_build]
  exact s.effectiveLimit_nonneg ch (by omega)

/-- Tcmd lies within the totals (R28). -/
theorem TorqueUnit.nextTcmd_mem (t : TorqueUnit) (drive : DriveState) {pos neg : Int} (hpos : 0 ≤ pos) (hneg : 0 ≤ neg) :
    -neg ≤ t.nextTcmd drive pos neg ∧ t.nextTcmd drive pos neg ≤ pos := by
  unfold TorqueUnit.nextTcmd
  split
  · exact clamp_mem (by omega)
  · omega

/-- The references of a Tcmd of 0 are 0 (R31). -/
theorem references_zero (share : Nat) {lim lneg : Pair Int} (pos : ∀ ch, 0 ≤ lim.get ch) (neg : ∀ ch, 0 ≤ lneg.get ch) :
    references 0 share lim lneg = ⟨0, 0⟩ := by
  have la : 0 ≤ lim.a := pos .a
  have lb : 0 ≤ lim.b := pos .b
  have na : 0 ≤ lneg.a := neg .a
  have nb : 0 ≤ lneg.b := neg .b
  obtain ⟨e, -⟩ := references_spec 0 share lim lneg la lb na nb (by omega) (by omega)
  rw [e, Pair.mk.injEq]
  omega

/-- A computation of limits, Tcmd and references keeps the invariant, the stop-hold condition being evaluated behind it in
STOPPING. -/
theorem State.TorqueRest.computeTorque {s : State} (h : s.TorqueRest) (idle : s.rc.drive ≠ .stopping → s.rc.stopHold = none) :
    s.computeTorque.evalStopHold.TorqueRest := by
  obtain ⟨-, -, -, rest, -, ascending⟩ := h
  have pos := State.positiveLimits_nonneg ascending
  have neg := s.holdbackLimits_nonneg
  have ta : 0 ≤ s.positiveLimits.total := Int.add_nonneg (pos .a) (pos .b)
  have tb : 0 ≤ s.holdbackLimits.total := Int.add_nonneg (neg .a) (neg .b)
  obtain ⟨low, high⟩ := s.tru.nextTcmd_mem s.rc.drive ta tb
  obtain ⟨refs, lowA, highA, lowB, highB⟩ :=
    references_spec (s.tru.nextTcmd s.rc.drive s.positiveLimits.total s.holdbackLimits.total) s.tru.share s.positiveLimits
      s.holdbackLimits (pos .a) (pos .b) (neg .a) (neg .b) low high
  unfold State.TorqueRest
  rw [show s.computeTorque.evalStopHold.tru = s.computeTorque.tru by simp]
  simp only [State.evalStopHold_drive, State.computeTorque_keeps]
  refine ⟨fun ch => ?_, ?_, fun z => ?_, fun l => ?_, fun r => ?_, ascending⟩
  · refine ⟨pos ch, neg ch, ?_⟩
    simp only [State.computeTorque, refs]
    cases ch
    · exact ⟨lowA, highA⟩
    · exact ⟨lowB, highB⟩
  · simp only [State.computeTorque, refs]
    omega
  · simp only [State.computeTorque] at z ⊢
    rw [z]
    exact references_zero _ pos neg
  · obtain ⟨-, excess, imb⟩ := rest l
    exact ⟨by simp [State.computeTorque, TorqueUnit.nextTcmd, l], excess, imb⟩
  · by_cases stopping : s.rc.drive = .stopping
    · exact State.evalStopHold_tcmd (s := s.computeTorque) (by simpa using stopping) r
    · rw [show s.computeTorque.evalStopHold = s.computeTorque from if_neg (by simpa using stopping)] at r
      simp [idle stopping] at r

theorem TorqueUnit.demand_same (t : TorqueUnit) (seq : Nat) (td : Int) : (t.demand seq td).SameTorque t := by
  unfold TorqueUnit.demand TorqueUnit.demandUnchanged
  dsimp only
  (repeat' split) <;> exact .rfl

theorem State.readDemand_same (s : State) : s.readDemand.tru.SameTorque s.tru := by
  simpa [State.readDemand, TorqueUnit.SameTorque] using s.tru.demand_same (s.xm.read 0).toNat (s.xm.read 1).toInt

/-- The watches count in the live states alone (R34). -/
theorem State.TorqueRest.countWatches {s : State} (h : s.TorqueRest) : s.countWatches.TorqueRest := by
  unfold State.countWatches
  split
  case isTrue live =>
    obtain ⟨limits, sum, zero, -, hold, ascending⟩ := h
    exact ⟨limits, sum, zero, fun l => by simp [live] at l, hold, ascending⟩
  · exact h

theorem State.TorqueRest.computed {s : State} (h : s.TorqueRest) (idle : s.rc.drive ≠ .stopping → s.rc.stopHold = none) :
    s.computed.TorqueRest := by
  have demand : s.readDemand.TorqueRest :=
    h.of_same s.readDemand_same (fun l => .inl (by simpa using l)) fun r => .inl (by simpa using r)
  have counted : s.counted.TorqueRest := (demand.computeTorque (by simpa using idle)).countWatches
  exact counted.of_same (by simp [State.computed, State.handOff, TorqueUnit.SameTorque])
    (fun l => .inl (by simpa [State.computed] using l)) fun r => .inl (by simpa [State.computed] using r)

/-! ### Reports and the step -/

theorem State.transfer_same (s : State) : s.transfer.tru.SameTorque s.tru := by
  simp [State.transfer, State.zeroLiveCounts, TorqueUnit.SameTorque]

theorem State.TorqueRest.transfer {s : State} (h : s.TorqueRest) : s.transfer.TorqueRest :=
  h.of_same s.transfer_same (fun l => .inl (by simpa using l)) fun r => .inl (by simpa using r)

/-- Every command keeps the rest of the torque invariant, over run control's. -/
theorem State.TorqueRest.exec {c : Instr} {s t : State} (run : s.RunInv) (rest : s.TorqueRest) (hc : exec c s = .next t) :
    t.TorqueRest := by
  have idle : s.rc.drive ≠ .stopping → s.rc.stopHold = none := by
    obtain ⟨-, -, -, -, -, hold, -⟩ := run
    exact fun other => Option.not_isSome_iff_eq_none.1 fun running => other (hold running)
  have kept : ∀ u : State, u.rc = s.rc → u.tru = s.tru → u.TorqueRest := fun _ => rest.of_eq
  have moved : ∀ u v : State, WatchMoves u v → u.TorqueRest → v.TorqueRest := fun u v m hu => hu.of_eq m.rc m.tru
  have report : ∀ (u : State) c, u.TorqueRest → (u.report c).TorqueRest := fun u c hu => hu.report c
  apply exec_cases (P := State.TorqueRest) hc
  case same => exact rest
  case powerOn => exact .of_reset rfl rfl
  case pinLow => exact State.pinLow_of rest (kept _ rfl rfl) fun _ hu => hu.warmReset none
  case control => exact State.writeControl_of rest report rest.warmReset fun _ hu => hu.of_eq (by simp) (by simp)
  case orders => exact rest.takeUp
  case truExpires =>
    exact State.truExpires_of rest report fun due =>
      State.TorqueRest.computed (s := s.truDue due) (rest.of_same .rfl .inl .inl) idle
  case breakAway => exact State.breakAwayExpires_of rest report fun _ => rest.of_same .rfl .inl .inl
  case stopHold => exact rest.stopHoldExpires
  case speedWindow => exact rest.speedWindow
  case linkFrame =>
    exact fun ch => State.linkFrame_of rest report (kept _ rfl rfl) (kept _ rfl rfl) fun _ =>
      kept _ (by simp [State.regulated]) (by simp [State.regulated])
  case breakDetected => exact fun ch => State.breakDetected_of rest report (kept _ rfl rfl)
  case linkLoss =>
    exact fun ch => State.linkLossExpires_of rest report (fun _ => kept _ rfl rfl) fun _ => kept _ rfl rfl
  case evaluation => exact State.evaluationEnds_of rest report moved
  case sampleFrame => exact fun f => moved s _ (s.sampleFrame_moves f) rest
  case portLoss => exact moved s _ s.portLossExpires_moves rest
  case filter => exact State.externalExpires_of rest report fun _ => kept _ rfl rfl
  case endInit =>
    unfold State.endInit
    split
    · exact rest
    · exact rest.of_same .rfl .inl .inl
  case reportTimer => 
    exact State.reportExpires_of rest (fun _ => kept _ rfl rfl) (fun _ hu => hu.transfer) fun _ hu => hu.of_eq (by simp) (by simp)
  all_goals intros; exact kept _ (by simp) (by simp)

/-- Settles O7. -/
theorem stepKeepsTorque : Obligations.StepKeepsTorque := by
  intro s t h hs
  refine step_keeps (P := State.TorqueInv) (fun s rest h => ?_) (fun s h => ?_) (fun c s t h hc => ?_) h hs
  · exact ⟨h.1.of_eq rfl rfl rfl, h.2⟩
  · exact ⟨h.1.of_eq rfl rfl rfl, h.2⟩
  · exact ⟨h.1.exec hc, State.TorqueRest.exec h.1 h.2 hc⟩

end Sys2Proof.Machine

/-! The vibration watch's operations, said once each (R103 to R124): what they leave of `vw`. Then BLIND stays established while the
live drive has lost its watch (R119, R120), operation by operation, and the step (O8). -/

namespace Sys2Proof.Machine

/-! ### Derate -/

@[simp] theorem State.setDerate_vw (s : State) (d : Derate) : (s.setDerate d).vw = { s.vw with derate := d } := by
  unfold State.setDerate
  split
  case isTrue same => rw [← same]
  case isFalse => simp [State.notifyDerate]

@[simp] theorem State.establishBlind_vw (s : State) : s.establishBlind.vw = { s.vw with derate := .blind, quietTime := 0 } := by
  simp [State.establishBlind]

theorem State.blindIf_vw (s : State) (c : Bool) :
    (s.blindIf c).vw = if (c && s.rc.drive.live) = true then { s.vw with derate := .blind, quietTime := 0 } else s.vw := by
  unfold State.blindIf
  split <;> simp

/-- A trip-enabled channel in FAULT. -/
def SensorChannel.Blinds (c : SensorChannel) : Prop := c.tripEnable = true ∧ c.level = .fault

theorem VibrationWatch.blindCondition_iff (v : VibrationWatch) :
    v.blindCondition = true ↔ v.rx = .lost ∨ ∃ i, (v.channels.get i).Blinds := by
  simp [VibrationWatch.blindCondition, Octet.mem_toList, SensorChannel.Blinds]

/-- The condition asks of a channel its level and its trip enable alone. -/
theorem VibrationWatch.blindCondition_mono {v w : VibrationWatch} (rx : w.rx = .lost → v.rx = .lost)
    (channels : ∀ i, (w.channels.get i).Blinds → (v.channels.get i).Blinds) (h : w.blindCondition = true) :
    v.blindCondition = true := by
  rw [VibrationWatch.blindCondition_iff] at h ⊢
  exact h.imp rx fun ⟨i, b⟩ => ⟨i, channels i b⟩

/-- The quiet condition shuts the BLIND condition out. -/
theorem VibrationWatch.not_blind_of_quiet {v : VibrationWatch} (port : v.rx = .up)
    (quiet : ∀ i, (v.channels.get i).enabled = true → (v.channels.get i).level = .quiet) : ¬v.blindCondition = true := by
  rw [VibrationWatch.blindCondition_iff]
  rintro (lost | ⟨i, -, fault⟩)
  · rw [port] at lost
    cases lost
  · have := quiet i (by simp [SensorChannel.enabled, fault])
    rw [fault] at this
    cases this

theorem VibrationWatch.quietCondition_iff (v : VibrationWatch) :
    v.quietCondition = true ↔ v.rx = .up ∧ ∀ i, (v.channels.get i).enabled = true → (v.channels.get i).level = .quiet := by
  rw [VibrationWatch.quietCondition, Bool.and_eq_true, Octet.all_toList]
  simp [imp_iff_not_or]

/-! ### Channels -/

@[simp] theorem SensorChannel.newBlock_level (c : SensorChannel) : c.newBlock.level = c.level := rfl
@[simp] theorem SensorChannel.newBlock_tripEnable (c : SensorChannel) : c.newBlock.tripEnable = c.tripEnable := rfl

theorem VibrationWatch.sampled_get (v : VibrationWatch) (f : SampleFrame) (i : Fin 8) :
    (v.sampled f).get i = if (v.channels.get i).enabled then
      (v.channels.get i).sample v.k (f.samples.get i) (f.bias.getLsbD i.val) else v.channels.get i := by
  rw [VibrationWatch.sampled, Octet.get_build]

/-- The work on a sample leaves the level, or enters FAULT (R107). -/
theorem SensorChannel.sample_level (c : SensorChannel) (k : Nat) (x : Int) (bias : Bool) :
    (c.sample k x bias).level = c.level ∨ (c.sample k x bias).level = .fault := by
  rw [SensorChannel.sample_spec]
  exact (ite_eq_or_eq _ _ _).symm

theorem SensorChannel.sample_tripEnable (c : SensorChannel) (k : Nat) (x : Int) (bias : Bool) :
    (c.sample k x bias).tripEnable = c.tripEnable := by
  rw [SensorChannel.sample_spec]

@[simp] theorem SensorChannel.moveCounters_level (c : SensorChannel) (b : BlockClass) : (c.moveCounters b).level = c.level := by
  cases b <;> rfl

@[simp] theorem SensorChannel.moveCounters_tripEnable (c : SensorChannel) (b : BlockClass) :
    (c.moveCounters b).tripEnable = c.tripEnable := by
  cases b <;> rfl

@[simp] theorem SensorChannel.judge_tripEnable (c : SensorChannel) (v : VibrationWatch) (l : Latched) :
    (c.judge v l).tripEnable = c.tripEnable := by
  unfold SensorChannel.judge
  split
  · dsimp only
    split <;> rfl
  · simp

/-- The rows of R114 lead into FAULT from FAULT alone, and keep DISABLED. -/
theorem SensorChannel.nextLevel_fault {c : SensorChannel} {pa pcl pd : Nat} (h : c.nextLevel pa pcl pd = .fault) :
    c.level = .fault := by
  unfold SensorChannel.nextLevel at h
  split at h
  case h_4 fault => exact fault
  all_goals (repeat' split at h) <;> cases h

/-- No judgement enters FAULT (R110). -/
theorem SensorChannel.judge_fault {c : SensorChannel} {v : VibrationWatch} {l : Latched} (h : (c.judge v l).level = .fault) :
    c.level = .fault := by
  unfold SensorChannel.judge at h
  split at h
  case isTrue fault => exact fault
  case isFalse => simpa using SensorChannel.nextLevel_fault h

theorem State.judgeBlock_channels (s : State) (l : Latched) :
    (s.judgeBlock l).vw.channels =
      if l.judged then s.vw.channels.set l.channel ((s.vw.channels.get l.channel).judge s.vw l) else s.vw.channels := by
  unfold State.judgeBlock
  split
  · dsimp only
    split
    · rfl
    · split <;> simp
  · rfl

/-- Judging a block moves its channel, and may set the quiet time to 0. -/
theorem State.judgeBlock_vw (s : State) (l : Latched) :
    (s.judgeBlock l).vw = { s.vw with channels := (s.judgeBlock l).vw.channels, quietTime := (s.judgeBlock l).vw.quietTime } ∧
      ((s.judgeBlock l).vw.quietTime = s.vw.quietTime ∨ (s.judgeBlock l).vw.quietTime = 0) := by
  unfold State.judgeBlock
  split
  · dsimp only
    split
    · exact ⟨rfl, .inl rfl⟩
    · split <;> simp
  · exact ⟨rfl, .inl rfl⟩

/-- A frame that completes blocks leaves their channels new blocks (R109). -/
theorem State.completionTest_vw (s : State) :
    s.completionTest.vw = { s.vw with
      channels := s.vw.channels.map fun c => if c.complete s.vw.n then c.newBlock else c
      evaluation := s.completionTest.vw.evaluation } := by
  unfold State.completionTest
  dsimp only
  split
  case isTrue none =>
    have same : (s.vw.channels.map fun c => if c.complete s.vw.n then c.newBlock else c) = s.vw.channels := by
      apply Octet.ext_get
      intro i
      rw [Octet.get_map, if_neg]
      intro complete
      have mem : i ∈ sensorNumbers.filter fun i => (s.vw.channels.get i).complete s.vw.n := by simp [complete]
      rw [List.isEmpty_iff.1 none] at mem
      cases mem
    rw [same]
  case isFalse => rfl

@[simp] theorem State.completionTest_rx (s : State) : s.completionTest.vw.rx = s.vw.rx := by rw [State.completionTest_vw]
@[simp] theorem State.completionTest_derate (s : State) : s.completionTest.vw.derate = s.vw.derate := by
  rw [State.completionTest_vw]
@[simp] theorem State.completionTest_quietTime (s : State) : s.completionTest.vw.quietTime = s.vw.quietTime := by
  rw [State.completionTest_vw]

theorem State.completionTest_channel (s : State) (i : Fin 8) :
    s.completionTest.vw.channels.get i =
      if (s.vw.channels.get i).complete s.vw.n then (s.vw.channels.get i).newBlock else s.vw.channels.get i := by
  rw [State.completionTest_vw]
  exact Octet.get_map _ _ i

/-- What a report keeps, the reports of an evaluation keep. -/
theorem State.dangersReported_of {P : State → Prop} {s : State} {e : Evaluation} (h : P (s.evaluated e))
    (report : ∀ u c, P u → P (u.report c)) : P (s.dangersReported e) := by
  unfold State.dangersReported
  dsimp only
  split
  · unfold State.reportDangers
    exact foldl_keeps (fun u _ hu => report u _ hu) _ h
  · exact h

/-! ### SET SENSOR -/

/-- A target channel behind SET SENSOR: the enable acts, and the five values stand (R123). -/
def SensorChannel.setBy (c : SensorChannel) (o : Order) : SensorChannel :=
  { c.setEnable (o.p 0 == 1) with
    group := groupOf (o.p 1), alertLevel := o.p 2, dangerLevel := o.p 3, hysteresis := o.p 4, tripEnable := o.p 5 == 1 }

theorem setSensorOn_vw (o : Order) (s : State) (i : Fin 8) :
    (setSensorOn o s i).vw = { s.vw with
      channels := s.vw.channels.set i ((s.vw.channels.get i).setBy o)
      evaluation := if (s.vw.channels.get i).enabled && !(o.p 0 == 1) then s.vw.evaluation.map (·.drop i) else s.vw.evaluation } := by
  unfold setSensorOn
  dsimp only
  split
  · rfl
  · simp [SensorChannel.setBy]

@[simp] theorem setSensorOn_rc (o : Order) (s : State) (i : Fin 8) : (setSensorOn o s i).rc = s.rc := by
  unfold setSensorOn
  dsimp only
  split <;> simp

/-- Behind the fold over the targets all but the channels and the evaluation is kept, and so is every channel that is no target. -/
theorem setSensors_keeps (o : Order) (targets : List (Fin 8)) (s : State) :
    let t := targets.foldl (setSensorOn o) s
    t.vw = { s.vw with channels := t.vw.channels, evaluation := t.vw.evaluation } ∧
      ∀ i, i ∉ targets → t.vw.channels.get i = s.vw.channels.get i := by
  induction targets generalizing s with
  | nil => exact ⟨rfl, fun _ _ => rfl⟩
  | cons j rest ih =>
    obtain ⟨vw, kept⟩ := ih (setSensorOn o s j)
    refine ⟨?_, fun i other => ?_⟩
    · rw [List.foldl_cons, vw, setSensorOn_vw]
    · rw [List.mem_cons, not_or] at other
      rw [List.foldl_cons, kept i other.2, setSensorOn_vw]
      simp [Octet.get_set, other.1]

/-! ### The invariant -/

/-- The invariant asks of run control only whether the drive is live. -/
theorem State.BlindInv.of_same {s t : State} (h : s.BlindInv) (live : t.rc.drive.live = true → s.rc.drive.live = true)
    (cond : t.vw.blindCondition = true → s.vw.blindCondition = true) (derate : t.vw.derate = s.vw.derate)
    (quiet : t.vw.quietTime = s.vw.quietTime ∨ t.vw.quietTime = 0) : t.BlindInv := by
  obtain ⟨blind, none⟩ := h
  unfold State.BlindInv
  rw [derate]
  exact ⟨fun l c => blind (live l) (cond c), fun n => quiet.elim (fun e => e.trans (none n)) id⟩

theorem State.BlindInv.of_eq {s t : State} (h : s.BlindInv) (drive : t.rc.drive = s.rc.drive) (vw : t.vw = s.vw) : t.BlindInv :=
  h.of_same (by rw [drive]; exact id) (by rw [vw]; exact id) (by rw [vw]) (.inl (by rw [vw]))

/-- A derate established BLIND, or one that the BLIND condition does not touch, meets the invariant. -/
theorem State.BlindInv.of_blind {t : State} (derate : t.vw.derate = .blind) : t.BlindInv :=
  ⟨fun _ _ => derate, fun none => by rw [derate] at none; cases none⟩

theorem State.BlindInv.of_not_cond {t : State} (cond : ¬t.vw.blindCondition = true) (quiet : t.vw.derate = .none → t.vw.quietTime = 0) :
    t.BlindInv :=
  ⟨fun _ c => absurd c cond, quiet⟩

/-- The test for BLIND restores the invariant behind a change that may have made its condition true (R119). -/
theorem State.BlindInv.blindIf {s t : State} {c : Bool} (h : s.BlindInv)
    (cond : t.rc.drive.live = true → t.vw.blindCondition = true → s.rc.drive.live = true ∧ s.vw.blindCondition = true ∨ c = true)
    (derate : t.vw.derate = s.vw.derate) (quiet : t.vw.quietTime = s.vw.quietTime ∨ t.vw.quietTime = 0) : (t.blindIf c).BlindInv := by
  by_cases established : (c && t.rc.drive.live) = true
  · refine State.BlindInv.of_blind ?_
    rw [State.blindIf_vw, if_pos established]
  · obtain ⟨blind, none⟩ := h
    have vw : (t.blindIf c).vw = t.vw := by rw [State.blindIf_vw, if_neg established]
    have rc : (t.blindIf c).rc = t.rc := by simp
    unfold State.BlindInv
    rw [rc, vw, derate]
    refine ⟨fun l b => (cond l b).elim (fun before => blind before.1 before.2) fun yes => ?_, fun n =>
      quiet.elim (fun e => e.trans (none n)) id⟩
    exact absurd (by rw [yes, l]; rfl) established

theorem State.BlindInv.zeroQuiet {s : State} (h : s.BlindInv) : s.zeroQuiet.BlindInv := h.of_same id id rfl (.inr rfl)

theorem State.BlindInv.report {s : State} (h : s.BlindInv) (c : Cause) : (s.report c).BlindInv := by
  unfold State.report
  split
  · exact h.of_eq (by simp) (by simp)
  · exact h.of_same (by simp [DriveState.live]) (by simp) (by simp) (.inl (by simp))

theorem State.BlindInv.warmReset {s : State} (h : s.BlindInv) (e : Option Nat) : (s.warmReset e).BlindInv := by
  unfold State.warmReset
  split
  · exact h
  · exact ⟨fun l => by simp [DriveState.live] at l, fun _ => rfl⟩

/-! ### Frames and evaluations -/

/-- A channel that a frame takes into FAULT while trip-enabled makes the test for BLIND (R107, R119). -/
theorem VibrationWatch.sampled_blinds {v : VibrationWatch} {f : SampleFrame} {i : Fin 8} (h : ((v.sampled f).get i).Blinds) :
    (v.channels.get i).Blinds ∨ i ∈ v.faultEntries f ∧ ((v.sampled f).get i).tripEnable = true := by
  obtain ⟨trip, fault⟩ := h
  by_cases already : (v.channels.get i).level = .fault
  · refine .inl ⟨?_, already⟩
    rw [VibrationWatch.sampled_get] at trip
    split at trip
    · rwa [SensorChannel.sample_tripEnable] at trip
    · exact trip
  · exact .inr ⟨by simp [VibrationWatch.faultEntries, already, fault], trip⟩

theorem State.BlindInv.takeFrame {s : State} (h : s.BlindInv) (f : SampleFrame) : (s.takeFrame f).BlindInv := by
  have faults : (State.faultEffects { s with vw := { s.vw with channels := s.vw.sampled f } } (s.vw.faultEntries f)).BlindInv := by
    have cond : ∀ b, (s.vw.faultEntries f).any (fun i => ((s.vw.sampled f).get i).tripEnable) = b →
        VibrationWatch.blindCondition { s.vw with channels := s.vw.sampled f } = true → s.vw.blindCondition = true ∨ b = true := by
      rintro b rfl blind
      rw [VibrationWatch.blindCondition_iff] at blind ⊢
      rcases blind with lost | ⟨i, blinds⟩
      · exact .inl (.inl lost)
      · rcases VibrationWatch.sampled_blinds blinds with before | ⟨entry, trip⟩
        · exact .inl (.inr ⟨i, before⟩)
        · exact .inr (List.any_eq_true.2 ⟨i, entry, trip⟩)
    unfold State.faultEffects
    split
    case isTrue none =>
      refine h.of_same id (fun blind => ?_) rfl (.inl rfl)
      have := cond _ rfl blind
      simpa [List.isEmpty_iff.1 none] using this
    case isFalse =>
      refine h.blindIf (fun l blind => ?_) (by simp) (.inr (by simp))
      simp only [State.zeroQuiet_rc, State.notifyLevel_keeps] at l
      exact (cond _ rfl (VibrationWatch.blindCondition_mono (by simp) (by simp) blind)).imp (⟨l, ·⟩) id
  unfold State.takeFrame
  dsimp only
  refine faults.of_same (by simp) (VibrationWatch.blindCondition_mono (by simp) fun i blinds => ?_) (by simp) (.inl (by simp))
  rw [State.completionTest_channel] at blinds
  split at blinds <;> simpa [SensorChannel.Blinds] using blinds

theorem State.BlindInv.drain {s : State} (h : s.BlindInv) (l : List SampleFrame) : (s.drain l).BlindInv := by
  induction l generalizing s with
  | nil => exact h.of_same id id rfl (.inl rfl)
  | cons f rest ih =>
    have taken : (State.takeFrame { s with vw := { s.vw with fifo := rest } } f).BlindInv :=
      State.BlindInv.takeFrame (s := { s with vw := { s.vw with fifo := rest } }) (h.of_same id id rfl (.inl rfl)) f
    unfold State.drain
    dsimp only
    split
    · exact taken
    · exact ih taken

theorem State.BlindInv.admitFrame {s : State} (h : s.BlindInv) (f : SampleFrame) : (s.admitFrame f).BlindInv := by
  unfold State.admitFrame
  split
  · refine h.of_same id (VibrationWatch.blindCondition_mono id fun i blinds => ?_) rfl (.inl rfl)
    rw [Octet.get_map] at blinds
    split at blinds <;> exact blinds
  split
  · exact h.of_same id id rfl (.inl rfl)
  · exact h.drain _

theorem State.BlindInv.sampleFrame {s : State} (h : s.BlindInv) (f : List RxByte) : (s.sampleFrame f).BlindInv := by
  unfold State.sampleFrame
  split
  · exact h
  split
  · exact h.of_same id id rfl (.inl rfl)
  split
  · exact h.of_same id id rfl (.inl rfl)
  · unfold State.acceptSample
    refine State.BlindInv.admitFrame (h.of_same (by simp) (VibrationWatch.blindCondition_mono ?_ (by simp)) (by simp)
      (.inl (by simp))) _
    simp only [State.notifyIf_keeps]
    split
    · exact fun up => nomatch up
    · exact id

theorem State.BlindInv.portLossExpires {s : State} (h : s.BlindInv) : s.portLossExpires.BlindInv := by
  have stopped : ∀ due, State.BlindInv { s.reach due with vw := { s.vw with lossTimer := none, goodRun := 0 } } := fun _ =>
    h.of_same id id rfl (.inl rfl)
  unfold State.portLossExpires
  split
  · exact h
  dsimp only
  split
  · exact State.BlindInv.zeroQuiet (h.blindIf (fun _ _ => .inr rfl) rfl (.inl rfl))
  · exact stopped _

theorem State.BlindInv.judgeBlock {s : State} (h : s.BlindInv) (l : Latched) : (s.judgeBlock l).BlindInv := by
  obtain ⟨vw, quiet⟩ := s.judgeBlock_vw l
  have rc : (s.judgeBlock l).rc = s.rc := by simp
  refine h.of_same (by rw [rc]; exact id) (VibrationWatch.blindCondition_mono (by rw [vw]; exact id) fun i blinds => ?_)
    (by rw [vw]) quiet
  rw [State.judgeBlock_channels] at blinds
  split at blinds
  · rw [Octet.get_set] at blinds
    split at blinds
    case isTrue same =>
      rw [same]
      exact ⟨by simpa using blinds.1, SensorChannel.judge_fault blinds.2⟩
    · exact blinds
  · exact blinds

/-- Derate is established ALERT from NONE alone, where the BLIND condition does not hold in a live drive (R118). -/
theorem State.BlindInv.establishAlert {s : State} (h : s.BlindInv) (none : s.vw.derate = .none) :
    (s.setDerate .alert).zeroQuiet.BlindInv := by
  obtain ⟨blind, -⟩ := h
  refine ⟨fun live cond => ?_, fun _ => by simp⟩
  have : s.vw.derate = .blind := blind (by simpa using live) (VibrationWatch.blindCondition_mono (by simp) (by simp) cond)
  rw [none] at this
  cases this

theorem State.BlindInv.moveAlertTime {s : State} (h : s.BlindInv) : s.moveAlertTime.BlindInv := by
  have counted : ∀ time, State.BlindInv { s with vw := { s.vw with alertTime := time } } := fun _ => h.of_same id id rfl (.inl rfl)
  generalize time : (if s.vw.alarmed then satInc s.vw.alertTime else 0) = time'
  unfold State.moveAlertTime
  rw [time]
  dsimp only
  split
  case isTrue establishes => exact (counted _).establishAlert establishes.2
  · exact counted _

/-- The quiet time releases derate under the quiet condition alone (R120). -/
theorem State.BlindInv.moveQuietTime {s : State} (h : s.BlindInv) : s.moveQuietTime.BlindInv := by
  unfold State.moveQuietTime
  split
  · exact h
  case isFalse established =>
  split
  case isTrue quiet =>
    have shut : ∀ v : VibrationWatch, v.rx = s.vw.rx → v.channels = s.vw.channels → ¬v.blindCondition = true := by
      intro v rx channels
      obtain ⟨port, all⟩ := s.vw.quietCondition_iff.1 quiet
      exact VibrationWatch.not_blind_of_quiet (rx.trans port) (by rw [channels]; exact all)
    dsimp only
    split
    · exact .of_not_cond (shut _ (by simp) (by simp)) fun _ => by simp
    · exact .of_not_cond (shut _ rfl rfl) fun none => absurd none established
  · exact h.zeroQuiet

theorem State.BlindInv.evaluated {s : State} (h : s.BlindInv) (e : Evaluation) : (s.evaluated e).BlindInv := by
  have judged : ((s.reach e.due).judgeAll e.latched).BlindInv := by
    unfold State.judgeAll
    exact foldl_keeps (P := State.BlindInv) (fun _ l hu => hu.judgeBlock l) _ (h.of_eq rfl rfl)
  unfold State.evaluated
  dsimp only
  split
  · exact judged.moveAlertTime.moveQuietTime
  · exact judged

theorem State.BlindInv.evaluationEnds {s : State} (h : s.BlindInv) : s.evaluationEnds.BlindInv := by
  cases e : s.vw.evaluation with
  | none => unfold State.evaluationEnds; rw [e]; exact h
  | some e' =>
    have reported : (s.dangersReported e').BlindInv := State.dangersReported_of (h.evaluated e') fun _ c hu => hu.report c
    have collecting : State.BlindInv { s.dangersReported e' with vw := { (s.dangersReported e').vw with evaluation := none } } :=
      reported.of_same id id rfl (.inl rfl)
    rw [State.evaluationEnds_eq e]
    exact collecting.drain _

/-! ### Run control and the orders -/

theorem State.BlindInv.speedWindow {s : State} (h : s.BlindInv) : s.speedWindow.BlindInv := by
  unfold State.speedWindow
  split
  · exact h
  unfold State.useSpeed
  dsimp only
  split
  case h_1 starting =>
    split
    · exact h.of_same (fun _ => by simp at starting; rw [starting]; rfl) id rfl (.inl rfl)
    · exact h.of_eq rfl rfl
  all_goals exact h.of_eq (by simp) (by simp)

theorem State.BlindInv.stopHoldExpires {s : State} (h : s.BlindInv) : s.stopHoldExpires.BlindInv := by
  unfold State.stopHoldExpires
  split
  · exact h
  dsimp only
  split
  · exact h.of_same (fun live => nomatch live) id rfl (.inl rfl)
  · exact h.of_eq rfl rfl

theorem State.BlindInv.enterStopping {s : State} (h : s.BlindInv) (live : s.rc.drive.live = true) : s.enterStopping.BlindInv :=
  h.of_same (fun _ => live) (by simp [State.enterStopping]) (by simp [State.enterStopping]) (.inl (by simp [State.enterStopping]))

theorem State.BlindInv.transfer {s : State} (h : s.BlindInv) : s.transfer.BlindInv := h.of_same id id rfl (.inl rfl)

theorem State.BlindInv.ownSetSensor {s : State} (h : s.BlindInv) (o : Order) : (ownSetSensor o s).1.BlindInv := by
  unfold Machine.ownSetSensor
  split
  · exact h
  case h_2 targets _ =>
    refine rangeChecked_keeps h fun _ => ?_
    obtain ⟨vw, others⟩ := setSensors_keeps o targets s
    dsimp only at vw others ⊢
    refine h.blindIf (fun l blind => ?_) (by rw [vw]) (.inl (by rw [vw]))
    have rc : (targets.foldl (setSensorOn o) s).rc = s.rc :=
      foldl_keeps (P := fun u : State => u.rc = s.rc) (fun u i hu => (setSensorOn_rc o u i).trans hu) _ rfl
    rw [rc] at l
    rw [VibrationWatch.blindCondition_iff] at blind ⊢
    rcases blind with lost | ⟨i, blinds⟩
    · exact .inl ⟨l, .inl (by rwa [vw] at lost)⟩
    by_cases target : i ∈ targets
    · refine .inr (List.any_eq_true.2 ⟨i, target, ?_⟩)
      simpa [SensorChannel.Blinds] using blinds
    · exact .inl ⟨l, .inr ⟨i, by rwa [others i target] at blinds⟩⟩

/-- Every owner keeps BLIND established. -/
theorem State.BlindInv.owner {s : State} (h : s.BlindInv) (k : OrderKind) (o : Order) : (k.owner o s).1.BlindInv := by
  cases k
  case setSensor => exact h.ownSetSensor o
  case setWatch =>
    refine rangeChecked_keeps h fun _ => ?_
    refine h.of_same id (VibrationWatch.blindCondition_mono id fun i blinds => ?_) rfl (.inl rfl)
    rw [Octet.get_map] at blinds
    split at blinds <;> exact blinds
  case run =>
    show (ownRun o s).1.BlindInv
    unfold ownRun
    split
    · exact h
    · exact h.blindIf (fun _ c => .inr c) rfl (.inl rfl)
  case stop =>
    show (ownStop o s).1.BlindInv
    unfold ownStop
    split
    case h_1 starting => exact h.enterStopping (by rw [starting]; rfl)
    case h_2 running => exact h.enterStopping (by rw [running]; rfl)
    all_goals exact h
  case tripReset =>
    show (ownTripReset o s).1.BlindInv
    unfold ownTripReset
    split
    · exact h
    split
    · exact h
    split
    · exact h
    · exact h.of_same (fun live => nomatch live) id rfl (.inl rfl)
  case clearDerate =>
    show (ownClearDerate o s).1.BlindInv
    unfold ownClearDerate
    split
    · exact h
    split
    · exact h
    case isFalse port =>
      split
      · exact h
      case h_2 loud =>
        have quiet : ∀ i, (s.vw.channels.get i).enabled = true → (s.vw.channels.get i).level = .quiet := by
          simpa [VibrationWatch.loudChannel] using loud
        refine .of_not_cond (VibrationWatch.not_blind_of_quiet ?_ ?_) fun _ => by simp
        · simpa using port
        · simpa using quiet
  case testTrip =>
    show (ownTestTrip o s).1.BlindInv
    unfold ownTestTrip
    split
    · exact h.report .test
    · exact h
  case injectLevel =>
    show (ownInjectLevel o s).1.BlindInv
    unfold ownInjectLevel
    split
    · split
      · exact h
      split
      · exact h
      · refine rangeChecked_keeps h fun _ => ?_
        refine h.of_same id (VibrationWatch.blindCondition_mono id fun i blinds => ?_) rfl (.inl rfl)
        rw [Octet.get_set] at blinds
        split at blinds
        case isTrue same => rw [same]; exact blinds
        · exact blinds
    all_goals exact h
  case transferCounts => exact h.transfer.of_eq (by simp [OrderKind.owner, ownTransferCounts]) (by simp [OrderKind.owner, ownTransferCounts])
  all_goals
    refine h.of_eq (OrderKind.owner_drive ?_ ?_ ?_ ?_ o s) (by simp [OrderKind.owner])
    all_goals decide

/-! ### The step -/

theorem State.BlindInv.exec {c : Instr} {s t : State} (h : s.BlindInv) (hc : exec c s = .next t) : t.BlindInv := by
  have kept : ∀ u : State, u.rc.drive = s.rc.drive → u.vw = s.vw → u.BlindInv := fun _ => h.of_eq
  have report : ∀ (u : State) c, u.BlindInv → (u.report c).BlindInv := fun u c hu => hu.report c
  apply exec_cases (P := State.BlindInv) hc
  case same => exact h
  case powerOn => exact ⟨(nomatch ·), fun _ => rfl⟩
  case pinLow => exact State.pinLow_of h (kept _ rfl rfl) fun _ hu => hu.warmReset none
  case control => exact State.writeControl_of h report h.warmReset fun _ hu => hu.of_eq (by simp) (by simp)
  case orders =>
    exact fun k => takeUp_keeps h (State.BlindInv.owner (s := s.countRecord) (h.of_eq (by simp) (by simp)) k s.recordOrder)
      fun u off hd r hu => hu.of_eq (by simp) (by simp)
  case truExpires =>
    exact State.truExpires_of h report fun due => kept _ (by simp [State.computed, State.counted, State.truDue])
      (by simp [State.computed, State.counted, State.truDue])
  case breakAway => exact State.breakAwayExpires_of h report fun _ => kept _ rfl rfl
  case stopHold => exact h.stopHoldExpires
  case speedWindow => exact h.speedWindow
  case linkFrame =>
    exact fun ch => State.linkFrame_of h report (kept _ rfl rfl) (kept _ rfl rfl) fun _ =>
      kept _ (by simp [State.regulated]) (by simp [State.regulated])
  case breakDetected => exact fun ch => State.breakDetected_of h report (kept _ rfl rfl)
  case linkLoss => exact fun ch => State.linkLossExpires_of h report (fun _ => kept _ rfl rfl) fun _ => kept _ rfl rfl
  case synchronise =>
    intro r
    unfold State.synchronise
    split
    · exact h
    split
    · split
      · exact h
      · exact kept _ rfl rfl
    · exact h.of_same id id rfl (.inl rfl)
  case evaluation => exact h.evaluationEnds
  case sampleFrame => exact h.sampleFrame
  case portLoss => exact h.portLossExpires
  case filter => exact State.externalExpires_of h report fun _ => kept _ rfl rfl
  case reportTimer =>
    exact State.reportExpires_of h (fun _ => kept _ rfl rfl) (fun _ hu => hu.transfer) fun _ hu => hu.of_eq (by simp) (by simp)
  all_goals intros; exact kept _ (by simp) (by simp)

/-- Settles O8. -/
theorem stepKeepsBlindDerate : Obligations.StepKeepsBlindDerate := by
  intro s t h hs
  exact step_keeps (P := State.BlindInv) (fun s rest h => h.of_eq rfl rfl) (fun s h => h.of_eq rfl rfl)
    (fun c s t h hc => h.exec hc) h hs

end Sys2Proof.Machine

/-! The working table under folds (R86 to R88), and the invariant of the position tracker (R81, R83, R86, R95): each move of the
tracker, and the step (O9). -/

namespace Sys2Proof.Machine

/-! ### The working table -/

@[simp] theorem length_modifyAt {α : Type} (f : α → α) (i : Nat) (l : List α) : (modifyAt f i l).length = l.length := by
  induction l generalizing i with
  | nil => simp [modifyAt]
  | cons x xs ih => cases i <;> simp [modifyAt, ih]

theorem mem_modifyAt {α : Type} {f : α → α} {i : Nat} {l : List α} {y : α} (h : y ∈ modifyAt f i l) : y ∈ l ∨ ∃ x ∈ l, y = f x := by
  induction l generalizing i with
  | nil => simp [modifyAt] at h
  | cons x xs ih =>
    cases i with
    | zero =>
      rcases List.mem_cons.1 h with rfl | tail
      · exact .inr ⟨x, by simp, rfl⟩
      · exact .inl (by simp [tail])
    | succ i =>
      rcases List.mem_cons.1 h with rfl | tail
      · exact .inl (by simp)
      · rcases ih tail with old | ⟨z, hz, e⟩
        · exact .inl (by simp [old])
        · exact .inr ⟨z, by simp [hz], e⟩

/-- A tracker that differs in its working table, of as many entries, well kept if they were. -/
def PositionTracker.Folded (p q : PositionTracker) : Prop :=
  q = { p with table := q.table } ∧ q.table.length = p.table.length ∧ ((∀ e ∈ p.table, e.Ok) → ∀ e ∈ q.table, e.Ok)

theorem PositionTracker.Folded.rfl {p : PositionTracker} : p.Folded p := ⟨Eq.refl _, Eq.refl _, id⟩

theorem PositionTracker.Folded.of_eq {p q : PositionTracker} (h : q = p) : p.Folded q := h ▸ .rfl

theorem PositionTracker.Folded.trans {p q r : PositionTracker} (h : p.Folded q) (k : q.Folded r) : p.Folded r := by
  obtain ⟨e, length, ok⟩ := h
  obtain ⟨e', length', ok'⟩ := k
  exact ⟨by rw [e', e], length'.trans length, ok' ∘ ok⟩

/-- A fold that keeps entries well keeps the table well. -/
theorem PositionTracker.Folded.modify {p : PositionTracker} {f : WorkEntry → WorkEntry} (ok : ∀ e, e.Ok → (f e).Ok) (i : Nat) :
    p.Folded { p with table := modifyAt f i p.table } := by
  refine ⟨Eq.refl _, length_modifyAt f i _, fun all e he => ?_⟩
  rcases mem_modifyAt he with old | ⟨x, hx, rfl⟩
  · exact all e old
  · exact ok x (all x hx)

theorem WorkEntry.Ok.foldTorque {e : WorkEntry} (h : e.Ok) (value : Int) : (e.foldTorque value).Ok := by
  obtain ⟨count, full, a, b⟩ := h
  unfold WorkEntry.foldTorque
  split
  case isTrue low =>
    refine ⟨by simp only; omega, fun f => ?_, a, b⟩
    have := full f
    omega
  case isFalse high => exact ⟨count, fun _ => by simp only; omega, a, b⟩

theorem WorkEntry.Ok.foldVibration {e : WorkEntry} (h : e.Ok) (group : Chan) {value : Nat} (small : value ≤ 32767) :
    (e.foldVibration group value).Ok := by
  obtain ⟨count, full, a, b⟩ := h
  cases group
  · exact ⟨count, full, max_le a small, b⟩
  · exact ⟨count, full, a, max_le b small⟩

/-! ### Folds of a frame and of a computation -/

theorem foldl_max_le {l : List Nat} {m b : Nat} (start : b ≤ m) (all : ∀ x ∈ l, x ≤ m) : l.foldl max b ≤ m := by
  induction l generalizing b with
  | nil => exact start
  | cons x l ih => exact ih (max_le start (all x (by simp))) fun y hy => all y (by simp [hy])

/-- The magnitudes of a frame are at most 32767 (R108). -/
theorem VibrationWatch.groupMagnitudes_le {v : VibrationWatch} {f : SampleFrame} {g : Chan} : ∀ m ∈ v.groupMagnitudes f g, m ≤ 32767 := by
  intro m hm
  obtain ⟨i, -, rfl⟩ := List.mem_map.1 hm
  exact min_le_right _ _

theorem State.foldGroup_folded (s : State) (g : Chan) {m : List Nat} (small : ∀ x ∈ m, x ≤ 32767) :
    s.pt.Folded (s.foldGroup g m).pt := by
  unfold State.foldGroup
  split
  · exact .rfl
  · exact .modify (fun _ he => he.foldVibration g (foldl_max_le (Nat.zero_le _) small)) _

theorem State.completionTest_pt (s : State) : s.completionTest.pt = s.pt := by simp

theorem State.faultEffects_pt (s : State) (l : List (Fin 8)) : (s.faultEffects l).pt = s.pt := by simp

theorem State.takeFrame_folded (s : State) (f : SampleFrame) : s.pt.Folded (s.takeFrame f).pt := by
  unfold State.takeFrame
  dsimp only
  rw [State.completionTest_pt]
  refine .trans ?_ (State.foldGroup_folded _ .b VibrationWatch.groupMagnitudes_le)
  refine .trans ?_ (State.foldGroup_folded _ .a VibrationWatch.groupMagnitudes_le)
  exact .of_eq (State.faultEffects_pt _ _)

theorem State.drain_folded (s : State) (l : List SampleFrame) : s.pt.Folded (s.drain l).pt := by
  induction l generalizing s with
  | nil => exact .rfl
  | cons f rest ih =>
    have taken := State.takeFrame_folded { s with vw := { s.vw with fifo := rest } } f
    unfold State.drain
    dsimp only
    split
    · exact taken
    · exact taken.trans (ih _)

theorem State.admitFrame_folded (s : State) (f : SampleFrame) : s.pt.Folded (s.admitFrame f).pt := by
  unfold State.admitFrame
  split
  · exact .rfl
  split
  · exact .rfl
  · exact s.drain_folded _

theorem State.sampleFrame_folded (s : State) (f : List RxByte) : s.pt.Folded (s.sampleFrame f).pt := by
  unfold State.sampleFrame
  split
  · exact .rfl
  split
  · exact .rfl
  split
  · exact .rfl
  · unfold State.acceptSample
    exact .trans (.of_eq (by simp)) (State.admitFrame_folded _ _)

theorem State.evaluationEnds_folded (s : State) : s.pt.Folded s.evaluationEnds.pt := by
  cases e : s.vw.evaluation with
  | none => unfold State.evaluationEnds; rw [e]; exact .rfl
  | some e' =>
    have evaluated : (s.evaluated e').pt = s.pt := by
      unfold State.evaluated
      dsimp only
      split <;> simp
    have reported : (s.dangersReported e').pt = s.pt :=
      State.dangersReported_of (P := fun u => u.pt = s.pt) evaluated fun u c hu => by simpa using hu
    rw [State.evaluationEnds_eq e]
    exact .trans (.of_eq reported) (State.drain_folded _ _)

theorem State.computed_folded (s : State) : s.pt.Folded s.computed.pt := by
  have before : s.counted.handOff.pt = s.pt := by simp [State.counted]
  unfold State.computed State.sectorFold
  split
  · exact .trans (.of_eq before) (.modify (fun _ he => he.foldTorque _) _)
  · exact .of_eq before

/-! ### The invariant -/

/-- What the invariant asks of the tracker. -/
def PositionTracker.Ok (p : PositionTracker) : Prop :=
  64 ≤ p.p ∧ p.p ≤ 65535 ∧ p.tol ≤ p.p / 8 ∧
  p.pc < p.p ∧ p.sector = p.pc * 32 / p.p ∧
  (-32767 ≤ p.speed ∧ p.speed ≤ 32767) ∧
  (-2147483648 ≤ p.netCount ∧ p.netCount ≤ 2147483647) ∧
  p.table.length = 32 ∧ (∀ e ∈ p.table, e.Ok) ∧
  (p.tracking = .uncertain → p.taint = true)

theorem State.positionInv_iff (s : State) : s.PositionInv ↔ s.pt.Ok := Iff.rfl

theorem PositionTracker.Ok.folded {p q : PositionTracker} (h : p.Ok) (f : p.Folded q) : q.Ok := by
  obtain ⟨e, length, ok⟩ := f
  obtain ⟨low, high, tol, pc, sector, speed, net, entries, all, taint⟩ := h
  unfold PositionTracker.Ok
  rw [e]
  exact ⟨low, high, tol, pc, sector, speed, net, length.trans entries, ok all, taint⟩

theorem newTable_ok : (List.replicate 32 ({} : WorkEntry)).length = 32 ∧ ∀ e ∈ List.replicate 32 ({} : WorkEntry), e.Ok := by
  refine ⟨rfl, fun e he => ?_⟩
  rw [List.eq_of_mem_replicate he]
  exact ⟨by decide, (nomatch ·), by decide, by decide⟩

/-- The reset values, with a start time (R94, R162). -/
theorem PositionTracker.ok_reset (t : Nat) : PositionTracker.Ok { startTime := t } :=
  by
  refine ⟨?_, ?_, ?_, ?_, ?_, ?_, ?_, newTable_ok.1, newTable_ok.2, fun _ => rfl⟩ <;> norm_num

theorem PositionTracker.Ok.pulse {p : PositionTracker} (h : p.Ok) (fwd : Bool) : (p.pulse fwd).Ok := by
  obtain ⟨low, high, tol, pc, sector, speed, net, entries, all, taint⟩ := h
  have inside : (p.pulse fwd).pc < p.p := by
    unfold PositionTracker.pulse
    cases fwd <;> simp only [Bool.false_eq_true, if_false, if_true, beq_iff_eq] <;> split <;> omega
  refine ⟨low, high, tol, inside, rfl, speed, clamp_mem (by decide), entries, all, fun u => ?_⟩
  simp [PositionTracker.pulse, taint u]

theorem PositionTracker.Ok.boundary {p : PositionTracker} (h : p.Ok) (kind : BoundaryKind) (becomes : Tracking) (t : Nat) :
    (p.boundary kind becomes t).Ok := by
  obtain ⟨low, high, tol, pc, sector, speed, -⟩ := h
  obtain ⟨ended, -, -, -, -, -, -, e⟩ := p.boundary_spec kind becomes t
  rw [e]
  exact ⟨low, high, tol, pc, sector, speed, by norm_num, newTable_ok.1, newTable_ok.2, fun u => decide_eq_true u⟩

theorem PositionTracker.Ok.doubt {p : PositionTracker} (h : p.Ok) : p.doubt.Ok := by
  obtain ⟨low, high, tol, pc, sector, speed, net, entries, all, taint⟩ := h
  refine ⟨low, high, tol, pc, sector, speed, net, entries, all, fun _ => ?_⟩
  unfold PositionTracker.doubt
  cases e : p.tracking
  · simp
  · simp [taint e]

theorem PositionTracker.Ok.quadrature {p : PositionTracker} (h : p.Ok) (c : Fin 4) (t : Nat) : (p.quadrature c t).Ok := by
  refine PositionTracker.quadrature_of h (fun _ _ hq => hq) (fun _ fwd hq => hq.pulse fwd) (fun q t hq => ?_) (fun _ hq => hq.doubt) c t
  unfold PositionTracker.missedMarker
  split
  · exact PositionTracker.Ok.boundary (p := { q with wrapped := false }) hq _ _ t
  · exact hq

theorem PositionTracker.Ok.marker {p : PositionTracker} (h : p.Ok) (t : Nat) : (p.marker t).Ok := by
  have atMarker : ∀ q : PositionTracker, q.Ok → PositionTracker.Ok { q with pc := 0, sector := 0, wrapped := false } := by
    rintro q ⟨low, high, tol, -, -, rest⟩
    exact ⟨low, high, tol, by simp only; omega, by simp, rest⟩
  unfold PositionTracker.marker
  dsimp only
  split <;> exact atMarker _ (h.boundary _ _ t)

theorem State.PositionInv.of_eq {s t : State} (h : s.PositionInv) (pt : t.pt = s.pt) : t.PositionInv := by
  rw [State.positionInv_iff, pt]
  exact h

theorem State.PositionInv.of_folded {s t : State} (h : s.PositionInv) (pt : s.pt.Folded t.pt) : t.PositionInv := PositionTracker.Ok.folded h pt

theorem State.PositionInv.warmReset {s : State} (h : s.PositionInv) (e : Option Nat) : (s.warmReset e).PositionInv := by
  unfold State.warmReset
  split
  · exact h
  · exact PositionTracker.ok_reset _

theorem State.useSpeed_pt (s : State) : s.useSpeed.pt = s.pt := by simp

theorem State.PositionInv.speedWindow {s : State} (h : s.PositionInv) : s.speedWindow.PositionInv := by
  obtain ⟨low, high, tol, pc, sector, -, rest⟩ := id h
  unfold State.speedWindow
  split
  · exact h
  · refine State.PositionInv.of_eq ?_ (State.useSpeed_pt _)
    exact ⟨low, high, tol, pc, sector, clamp_mem (by norm_num), rest⟩

theorem State.PositionInv.completePublication {s : State} (h : s.PositionInv) : s.completePublication.PositionInv := by
  unfold State.completePublication
  split
  · exact h
  dsimp only
  split
  · exact h
  · exact h

theorem State.PositionInv.ownSetPosition {s : State} (h : s.PositionInv) (o : Order) : (ownSetPosition o s).1.PositionInv := by
  refine rangeChecked_keeps h fun passes => ?_
  obtain ⟨-, -, -, -, -, speed, -⟩ := h
  have checks := firstBad_eq_none_iff.1 passes
  simp [inRange] at checks
  obtain ⟨scale, tol, -⟩ := checks
  obtain ⟨low, high⟩ := scale
  exact ⟨low, high, tol, lt_of_lt_of_le (show 0 < 64 by norm_num) low, by simp [PositionTracker.setScale, PositionTracker.newTable], speed,
    by norm_num [PositionTracker.setScale, PositionTracker.newTable], newTable_ok.1, newTable_ok.2, fun _ => rfl⟩

theorem State.PositionInv.setIsolation {s : State} (h : s.PositionInv) (ch : Chan) (v : Bool) : (s.setIsolation ch v).PositionInv := by
  unfold State.setIsolation
  cases ch
  · exact PositionTracker.Ok.doubt (p := { s.pt with source := if v then .b else .a, lastComb := none }) h
  · exact h

/-- What a change of an isolation flag keeps, ISOLATE and RESTORE keep. -/
theorem isolation_of {P : State → Prop} {s : State} (h : P s) (set : ∀ ch v, P (s.setIsolation ch v)) (o : Order) :
    P (ownIsolate o s).1 ∧ P (ownRestore o s).1 := by
  unfold ownIsolate ownRestore
  split
  · constructor
    · split
      · exact h
      split
      · exact h
      split
      · exact h
      · exact set _ _
    · split
      · exact h
      split
      · exact set _ _
      · exact h
  all_goals exact ⟨h, h⟩

/-- Every owner keeps the tracker's invariant. -/
theorem State.PositionInv.owner {s : State} (h : s.PositionInv) (k : OrderKind) (o : Order) : (k.owner o s).1.PositionInv := by
  cases k
  case setPosition => exact h.ownSetPosition o
  case isolate => exact (isolation_of h h.setIsolation o).1
  case restore => exact (isolation_of h h.setIsolation o).2
  all_goals exact h.of_eq (by simp [OrderKind.owner])

/-- Every command keeps the tracker's invariant. -/
theorem State.PositionInv.exec {c : Instr} {s t : State} (h : s.PositionInv) (hc : exec c s = .next t) : t.PositionInv := by
  have kept : ∀ u : State, u.pt = s.pt → u.PositionInv := fun _ => h.of_eq
  have report : ∀ (u : State) c, u.PositionInv → (u.report c).PositionInv := fun u c hu => hu.of_eq (by simp)
  apply exec_cases (P := State.PositionInv) hc
  case same => exact h
  case powerOn => exact PositionTracker.ok_reset 0
  case pinLow => exact State.pinLow_of h (kept _ rfl) fun _ hu => hu.warmReset none
  case control => exact State.writeControl_of h report h.warmReset fun _ hu => hu.of_eq (by simp)
  case orders =>
    exact fun k => takeUp_keeps h (State.PositionInv.owner (s := s.countRecord) (h.of_eq (by simp)) k s.recordOrder)
      fun u off hd r hu => hu.of_eq (by simp)
  case truExpires => exact State.truExpires_of h report fun due => h.of_folded (State.computed_folded (s.truDue due))
  case speedWindow => exact h.speedWindow
  case quadrature => exact fun _ c => PositionTracker.Ok.quadrature h c _
  case marker => exact fun _ => PositionTracker.Ok.marker h _
  case publication => exact h.completePublication
  case evaluation => exact h.of_folded s.evaluationEnds_folded
  case sampleFrame => exact fun f => h.of_folded (s.sampleFrame_folded f)
  case endInit =>
    unfold State.endInit
    split
    · exact h
    · exact h
  all_goals intros; exact kept _ (by simp)

/-- Settles O9. -/
theorem stepKeepsPosition : Obligations.StepKeepsPosition := by
  intro s t h hs
  exact step_keeps (P := State.PositionInv) (fun s rest h => h) (fun s h => h) (fun c s t h hc => h.exec hc) h hs

end Sys2Proof.Machine

/-! The invariant of the vibration watch (R101, R103, R110, R115, R123, R124): channels, blocks and evaluations, the port, the orders,
and the step (O10). -/

namespace Sys2Proof.Machine

/-- What the step of a fold keeps for the elements of its list, the fold keeps. -/
theorem foldl_keeps_mem {α σ : Type} {P : σ → Prop} {f : σ → α → σ} {l : List α} (act : ∀ s, ∀ x ∈ l, P s → P (f s x)) {s : σ} (h : P s) :
    P (l.foldl f s) := by
  induction l generalizing s with
  | nil => exact h
  | cons x l ih => exact ih (fun s y hy => act s y (by simp [hy])) (act s x (by simp) h)

/-! ### What the invariant asks, the waiting frames apart -/

/-- N is one of its four values (R124). -/
def BlockLength (n : Nat) : Prop := n = 256 ∨ n = 512 ∨ n = 1024 ∨ n = 2048

theorem BlockLength.pos {n : Nat} (h : BlockLength n) : 0 < n := by
  unfold BlockLength at h
  omega

/-- The latched blocks of an evaluation, over the channels: peaks of at most 32767, and a block that is not dropped belongs to an
enabled channel (R110). -/
def LatchedOk (channels : Octet SensorChannel) (evaluation : Option Evaluation) : Prop :=
  ∀ e, evaluation = some e → ∀ l ∈ e.latched, l.peak ≤ 32767 ∧ (l.dropped = false → (channels.get l.channel).level ≠ .disabled)

/-- The invariant but for the waiting frames. -/
def VibrationWatch.Core (v : VibrationWatch) : Prop :=
  v.goodRun ≤ 4 ∧ (v.rx = .up → v.lossTimer.isSome = true) ∧ (∀ q, v.lastSeq = some q → q ≤ 255) ∧ BlockLength v.n ∧
  (∀ i, (v.channels.get i).Ok v.n) ∧ LatchedOk v.channels v.evaluation

/-- The waiting frames: at most three, and none while the unit is COLLECTING (R103). -/
def VibrationWatch.Waiting (v : VibrationWatch) : Prop := v.fifo.length ≤ 3 ∧ (v.evaluation = none → v.fifo = [])

theorem State.watchInv_iff (s : State) : s.WatchInv ↔ s.vw.Waiting ∧ s.vw.Core :=
  ⟨fun ⟨length, empty, rest⟩ => ⟨⟨length, empty⟩, rest⟩, fun ⟨⟨length, empty⟩, rest⟩ => ⟨length, empty, rest⟩⟩

/-- Two watches alike in all that the invariant reads. -/
def VibrationWatch.SameWatch (a b : VibrationWatch) : Prop :=
  a.fifo = b.fifo ∧ a.evaluation = b.evaluation ∧ a.goodRun = b.goodRun ∧ a.rx = b.rx ∧ a.lossTimer = b.lossTimer ∧
  a.lastSeq = b.lastSeq ∧ a.n = b.n ∧ a.channels = b.channels

theorem VibrationWatch.SameWatch.rfl {a : VibrationWatch} : a.SameWatch a := by simp [VibrationWatch.SameWatch]

theorem VibrationWatch.Core.of_same {a b : VibrationWatch} (h : b.Core) (same : a.SameWatch b) : a.Core := by
  obtain ⟨-, evaluation, run, rx, timer, seq, n, channels⟩ := same
  unfold VibrationWatch.Core
  rw [evaluation, run, rx, timer, seq, n, channels]
  exact h

theorem State.WatchInv.of_same {s t : State} (h : s.WatchInv) (same : t.vw.SameWatch s.vw) : t.WatchInv := by
  obtain ⟨⟨length, empty⟩, core⟩ := s.watchInv_iff.1 h
  refine t.watchInv_iff.2 ⟨?_, core.of_same same⟩
  obtain ⟨fifo, evaluation, -⟩ := same
  unfold VibrationWatch.Waiting
  rw [fifo, evaluation]
  exact ⟨length, empty⟩

theorem State.WatchInv.of_eq {s t : State} (h : s.WatchInv) (vw : t.vw = s.vw) : t.WatchInv := h.of_same (by rw [vw]; exact .rfl)

/-- Channels may move while they stay well kept and none is disabled. -/
theorem VibrationWatch.Core.of_channels {a b : VibrationWatch} (h : b.Core) (same : VibrationWatch.SameWatch { a with channels := b.channels } b)
    (ok : ∀ i, (a.channels.get i).Ok a.n) (enabled : ∀ i, (a.channels.get i).level = .disabled → (b.channels.get i).level = .disabled) :
    a.Core := by
  obtain ⟨run, rx, seq, n, -, latched⟩ := VibrationWatch.Core.of_same h same
  exact ⟨run, rx, seq, n, ok, fun e he l hl => (latched e he l hl).imp id fun live kept dis => live kept (enabled _ dis)⟩

/-! ### Channels -/

theorem SensorChannel.nextLevel_disabled {c : SensorChannel} {pa pcl pd : Nat} (h : c.nextLevel pa pcl pd = .disabled) :
    c.level = .disabled := by
  unfold SensorChannel.nextLevel at h
  split at h
  case h_5 disabled => exact disabled
  all_goals (repeat' split at h) <;> cases h

theorem SensorChannel.Ok.newBlock {c : SensorChannel} {n m : Nat} (h : c.Ok n) (pos : 0 < m) : c.newBlock.Ok m := by
  obtain ⟨-, disabled, rest, -, results⟩ := h
  exact ⟨pos, fun d => ⟨rfl, (disabled d).2⟩, rest, Nat.zero_le _, results⟩

/-- A disabled channel holds no block, whatever N (R123). -/
theorem SensorChannel.Ok.of_disabled {c : SensorChannel} {n m : Nat} (h : c.Ok n) (off : c.enabled = false) (pos : 0 < m) : c.Ok m := by
  obtain ⟨-, disabled, rest⟩ := h
  have level : c.level = .disabled := by simpa [SensorChannel.enabled] using off
  exact ⟨by rw [(disabled level).1]; exact pos, disabled, rest⟩

/-- An entry into FAULT takes the counters to 0 (R115). -/
theorem SensorChannel.sample_enters {c : SensorChannel} {k : Nat} {x : Int} {bias : Bool} (before : c.level ≠ .fault)
    (after : (c.sample k x bias).level = .fault) :
    (c.sample k x bias).up = 0 ∧ (c.sample k x bias).dn = 0 ∧ (c.sample k x bias).low = 0 ∧ (c.sample k x bias).below = 0 := by
  unfold SensorChannel.sample at after ⊢
  dsimp only at after ⊢
  split at after
  case isTrue enters => simp only [enters, if_true, SensorChannel.zeroCounters, and_self]
  case isFalse => exact absurd after before

/-- What a frame leaves of an enabled channel: well kept, with a block of at most N samples (R106). -/
theorem SensorChannel.Ok.sample {c : SensorChannel} {n : Nat} (h : c.Ok n) (on : c.enabled = true) (k : Nat) (x : Int) (bias : Bool) :
    (c.sample k x bias).Ok (n + 1) ∧ (c.sample k x bias).enabled = true := by
  obtain ⟨count, -, rest, peak, results⟩ := h
  have live : c.level ≠ .disabled := by simpa [SensorChannel.enabled] using on
  have level := c.sample_level k x bias
  have still : (c.sample k x bias).level ≠ .disabled := by
    rcases level with same | fault
    · rw [same]; exact live
    · rw [fault]; exact nofun
  refine ⟨?_, by simpa [SensorChannel.enabled] using still⟩
  refine ⟨?_, fun dis => absurd dis still, fun idle => ?_, ?_, ?_⟩
  · rw [SensorChannel.sample_spec]
    exact Nat.succ_lt_succ count
  · have fault : (c.sample k x bias).level = .fault := idle.resolve_left still
    by_cases already : c.level = .fault
    · obtain ⟨up, dn, low, below⟩ := rest (.inr already)
      simp [SensorChannel.sample_spec, already, up, dn, low, below]
    · exact SensorChannel.sample_enters already fault
  · rw [SensorChannel.sample_spec]
    exact max_le peak (min_le_right _ _)
  · rw [SensorChannel.sample_spec]
    exact results

/-- No judgement disables a channel. -/
theorem SensorChannel.judge_disabled {c : SensorChannel} {v : VibrationWatch} {l : Latched} (h : (c.judge v l).level = .disabled) :
    c.level = .disabled := by
  unfold SensorChannel.judge at h
  split at h
  case isTrue fault =>
    dsimp only at h
    split at h
    · exact h
    · cases h
  case isFalse =>
    have disabled := SensorChannel.nextLevel_disabled h
    simpa using disabled

/-- A judgement that is not of a channel in FAULT moves the results, the injection, the counters and the level (R111 to R114). -/
theorem SensorChannel.judge_results {c : SensorChannel} {v : VibrationWatch} {l : Latched} (fault : c.level ≠ .fault) :
    (c.judge v l).count = c.count ∧ (c.judge v l).peak = c.peak ∧ (c.judge v l).lastPeak = l.peak ∧
    (c.judge v l).lastRms = (match c.injection with | some i => i.value | none => l.rms) ∧
    (c.judge v l).injection = c.injection.bind Injection.useOne := by
  unfold SensorChannel.judge
  rw [if_neg fault]
  dsimp only
  cases c.classify _ <;> exact ⟨rfl, rfl, rfl, rfl, rfl⟩

/-- A channel that is not disabled is judged well, and stays enabled (R110 to R115). -/
theorem SensorChannel.Ok.judge {c : SensorChannel} {n : Nat} (h : c.Ok n) (live : c.level ≠ .disabled) {v : VibrationWatch} {l : Latched}
    (peak : l.peak ≤ 32767) : (c.judge v l).Ok n ∧ (c.judge v l).level ≠ .disabled := by
  obtain ⟨count, -, rest, peak', rms, -, injection⟩ := h
  have small : l.rms ≤ 32767 := min_le_right _ _
  by_cases fault : c.level = .fault
  · have zero := rest (.inr fault)
    unfold SensorChannel.judge
    rw [if_pos fault]
    dsimp only
    split
    · exact ⟨⟨count, fun dis => absurd dis live, fun _ => zero, peak', small, peak, injection⟩, live⟩
    · exact ⟨⟨count, nofun, fun _ => ⟨rfl, rfl, rfl, rfl⟩, peak', small, peak, injection⟩, nofun⟩
  · have level : (c.judge v l).level ≠ .disabled ∧ (c.judge v l).level ≠ .fault :=
      ⟨fun dis => live (SensorChannel.judge_disabled dis), fun f => fault (SensorChannel.judge_fault f)⟩
    obtain ⟨count', peak'', lastPeak, lastRms, used⟩ := SensorChannel.judge_results (v := v) (l := l) fault
    refine ⟨⟨by rwa [count'], fun dis => absurd dis level.1, fun idle => absurd idle (not_or.2 level), by rwa [peak''], ?_,
      by rwa [lastPeak], fun i hi => ?_⟩, level.1⟩
    · rw [lastRms]
      split
      case h_1 i hi => exact (injection i hi).1
      · exact small
    · rw [used] at hi
      obtain ⟨j, hj, use⟩ := Option.bind_eq_some_iff.1 hi
      obtain ⟨value, low, high⟩ := injection j hj
      unfold Injection.useOne at use
      split at use
      · cases use
      · cases use
        exact ⟨value, by simp only; omega, by simp only; omega⟩

/-! ### Frames -/

/-- What a frame leaves before the completion test: every channel well kept but for a block that may be complete. -/
theorem VibrationWatch.sampled_ok {v : VibrationWatch} (ok : ∀ i, (v.channels.get i).Ok v.n) (n : 0 < v.n) (f : SampleFrame) (i : Fin 8) :
    ((v.sampled f).get i).Ok (v.n + 1) ∧
      ((v.sampled f).get i).enabled = (v.channels.get i).enabled := by
  rw [VibrationWatch.sampled_get]
  split
  case isTrue on =>
    obtain ⟨kept, still⟩ := (ok i).sample on v.k (f.samples.get i) (f.bias.getLsbD i.val)
    exact ⟨kept, still.trans on.symm⟩
  case isFalse off => exact ⟨(ok i).of_disabled (by simpa using off) (by omega), rfl⟩

/-- What an evaluation that a frame begins has latched (R109). -/
theorem State.completionTest_latched {s : State} (idle : s.vw.evaluation = none) {e : Evaluation}
    (he : s.completionTest.vw.evaluation = some e) {l : Latched} (hl : l ∈ e.latched) :
    ∃ i, (s.vw.channels.get i).complete s.vw.n = true ∧ (s.vw.channels.get i).latch i s.vw.n = l := by
  unfold State.completionTest at he
  dsimp only at he
  split at he
  · rw [idle] at he
    cases he
  · cases he
    obtain ⟨i, hi, e⟩ := List.mem_map.1 hl
    exact ⟨i, (List.mem_filter.1 hi).2, e⟩

/-- The completion test begins a new block in each channel whose block is complete, and latches it (R109). -/
theorem State.completionTest_core {s : State} (run : s.vw.goodRun ≤ 4) (rx : s.vw.rx = .up → s.vw.lossTimer.isSome = true)
    (seq : ∀ q, s.vw.lastSeq = some q → q ≤ 255) (n : BlockLength s.vw.n) (idle : s.vw.evaluation = none)
    (ok : ∀ i, (s.vw.channels.get i).Ok (s.vw.n + 1)) : s.completionTest.vw.Core := by
  have blocks : ∀ i, (s.completionTest.vw.channels.get i).Ok s.vw.n := by
    intro i
    rw [State.completionTest_channel]
    split
    · exact (ok i).newBlock n.pos
    case isFalse part =>
      by_cases on : (s.vw.channels.get i).enabled = true
      · obtain ⟨count, rest⟩ := ok i
        have : (s.vw.channels.get i).count ≠ s.vw.n := by simpa [SensorChannel.complete, on] using part
        exact ⟨by omega, rest⟩
      · exact (ok i).of_disabled (by simpa using on) n.pos
  have latched : LatchedOk s.completionTest.vw.channels s.completionTest.vw.evaluation := by
    rintro e he l hl
    obtain ⟨i, complete, rfl⟩ := State.completionTest_latched idle he hl
    have on : (s.vw.channels.get i).level ≠ .disabled := by
      simp only [SensorChannel.complete, SensorChannel.enabled, Bool.and_eq_true, bne_iff_ne] at complete
      exact complete.1
    obtain ⟨-, -, -, peak, -⟩ := ok i
    refine ⟨peak, fun _ => ?_⟩
    rw [State.completionTest_channel]
    split <;> exact on
  rw [State.completionTest_vw] at *
  exact ⟨run, rx, seq, n, blocks, latched⟩

theorem State.blindIf_same (s : State) (c : Bool) : (s.blindIf c).vw.SameWatch s.vw := by
  rw [State.blindIf_vw]
  split <;> simp [VibrationWatch.SameWatch]

/-- The effects of a channel entering FAULT are on derate and the quiet time alone. -/
theorem State.faultEffects_same (s : State) (l : List (Fin 8)) : (s.faultEffects l).vw.SameWatch s.vw := by
  unfold State.faultEffects
  split
  · exact .rfl
  · simpa [VibrationWatch.SameWatch] using State.blindIf_same (s.notifyLevel true).zeroQuiet _

/-- The COLLECTING unit takes a frame well (R103). -/
theorem State.takeFrame_core {s : State} (core : s.vw.Core) (idle : s.vw.evaluation = none) (f : SampleFrame) :
    (s.takeFrame f).vw.Core := by
  obtain ⟨run, rx, seq, n, ok, -⟩ := core
  obtain ⟨-, evaluation, run', rx', timer, seq', n', channels⟩ :=
    State.faultEffects_same { s with vw := { s.vw with channels := s.vw.sampled f } } (s.vw.faultEntries f)
  unfold State.takeFrame
  apply State.completionTest_core <;> simp only [State.foldGroup_keeps]
  · rwa [run']
  · rwa [rx', timer]
  · rwa [seq']
  · rwa [n']
  · rwa [evaluation]
  · rw [channels, n']
    exact fun i => (VibrationWatch.sampled_ok ok n.pos f i).1

theorem State.takeFrame_fifo (s : State) (f : SampleFrame) : (s.takeFrame f).vw.fifo = s.vw.fifo := by
  obtain ⟨fifo, -⟩ := State.faultEffects_same { s with vw := { s.vw with channels := s.vw.sampled f } } (s.vw.faultEntries f)
  unfold State.takeFrame
  rw [State.completionTest_vw]
  simpa using fifo

/-- The waiting frames are taken well (R103). -/
theorem State.drain_watchInv {s : State} (core : s.vw.Core) (idle : s.vw.evaluation = none) {l : List SampleFrame} (few : l.length ≤ 3) :
    (s.drain l).WatchInv := by
  induction l generalizing s with
  | nil => exact (State.watchInv_iff _).2 ⟨⟨Nat.zero_le _, fun _ => rfl⟩, core⟩
  | cons f rest ih =>
    have taken := State.takeFrame_core (s := { s with vw := { s.vw with fifo := rest } }) core idle f
    have fifo := State.takeFrame_fifo { s with vw := { s.vw with fifo := rest } } f
    have fewer : rest.length ≤ 3 := by simp only [List.length_cons] at few; omega
    unfold State.drain
    dsimp only
    split
    case isTrue evaluating =>
      refine (State.watchInv_iff _).2 ⟨⟨by rwa [fifo], fun none => ?_⟩, taken⟩
      rw [none] at evaluating
      cases evaluating
    case isFalse collecting => exact ih taken (by simpa using collecting) fewer

theorem State.WatchInv.admitFrame {s : State} (h : s.WatchInv) (f : SampleFrame) : (s.admitFrame f).WatchInv := by
  obtain ⟨⟨length, empty⟩, core⟩ := s.watchInv_iff.1 h
  unfold State.admitFrame
  split
  · refine (State.watchInv_iff _).2 ⟨⟨length, empty⟩, core.of_channels (by simp [VibrationWatch.SameWatch]) (fun i => ?_) fun i => ?_⟩
    · obtain ⟨-, -, -, -, ok, -⟩ := core
      rw [Octet.get_map]
      split <;> exact ok i
    · rw [Octet.get_map]
      split <;> exact id
  case isFalse room =>
    have few : (s.vw.fifo ++ [f]).length ≤ 3 := by
      simp only [Config.fifoMax] at room
      simp only [List.length_append, List.length_singleton]
      omega
    split
    case isTrue evaluating =>
      refine (State.watchInv_iff _).2 ⟨⟨few, fun none => ?_⟩, core⟩
      rw [show s.vw.evaluation = Option.none from none] at evaluating
      cases evaluating
    case isFalse collecting => exact State.drain_watchInv core (by simpa using collecting) few

theorem State.notifyIf_vw (s : State) (b : Bool) (n : Notice) : (s.notifyIf b n).vw = s.vw := by simp

theorem State.WatchInv.sampleFrame {s : State} (h : s.WatchInv) (f : List RxByte) : (s.sampleFrame f).WatchInv := by
  obtain ⟨waiting, -, rx, seq, n, ok, latched⟩ := s.watchInv_iff.1 h
  have discarded : ∀ b, (s.discardSample b).WatchInv := fun b =>
    (State.watchInv_iff _).2 ⟨waiting, Nat.zero_le _, rx, seq, n, ok, latched⟩
  unfold State.sampleFrame
  split
  · exact h
  split
  · exact discarded _
  split
  · exact discarded _
  · unfold State.acceptSample
    apply State.WatchInv.admitFrame
    refine State.WatchInv.of_eq ?_ (State.notifyIf_vw _ _ _)
    refine (State.watchInv_iff _).2 ⟨waiting, min_le_right _ _, fun _ => rfl, fun q hq => ?_, n, ok, latched⟩
    cases hq
    exact Nat.le_of_lt_succ (BitVec.isLt _)

/-! ### Evaluations -/

theorem State.judgeBlock_same (s : State) (l : Latched) :
    VibrationWatch.SameWatch { (s.judgeBlock l).vw with channels := s.vw.channels } s.vw := by
  unfold State.judgeBlock
  split
  · dsimp only
    split
    · simp [VibrationWatch.SameWatch]
    · split <;> simp [VibrationWatch.SameWatch]
  · exact .rfl

theorem State.judgeBlock_core {s : State} (core : s.vw.Core) {e : Evaluation} (he : s.vw.evaluation = some e) {l : Latched}
    (hl : l ∈ e.latched) : (s.judgeBlock l).vw.Core := by
  have channels := s.judgeBlock_channels l
  have n : (s.judgeBlock l).vw.n = s.vw.n := by rw [(s.judgeBlock_vw l).1]
  obtain ⟨-, -, -, -, ok, latched⟩ := id core
  split at channels
  case isTrue judged =>
    obtain ⟨peak, live⟩ := latched e he l hl
    have kept : l.dropped = false := by simp_all [Latched.judged]
    obtain ⟨judgedOk, still⟩ := (ok l.channel).judge (live kept) (v := s.vw) peak
    refine core.of_channels (s.judgeBlock_same l) (fun i => ?_) fun i => ?_
    · rw [channels, n, Octet.get_set]
      split
      · exact judgedOk
      · exact ok i
    · rw [channels, Octet.get_set]
      split
      · exact fun dis => absurd dis still
      · exact id
  case isFalse =>
    refine core.of_channels (s.judgeBlock_same l) (fun i => ?_) fun i => ?_
    · rw [channels, n]
      exact ok i
    · rw [channels]
      exact id

theorem State.judgeBlock_fifo (s : State) (l : Latched) :
    (s.judgeBlock l).vw.fifo = s.vw.fifo ∧ (s.judgeBlock l).vw.evaluation = s.vw.evaluation := by
  rw [(s.judgeBlock_vw l).1]
  exact ⟨rfl, rfl⟩

theorem State.moveAlertTime_same (s : State) : s.moveAlertTime.vw.SameWatch s.vw := by
  generalize time : (if s.vw.alarmed then satInc s.vw.alertTime else 0) = time'
  unfold State.moveAlertTime
  rw [time]
  dsimp only
  split <;> simp [VibrationWatch.SameWatch]

theorem State.moveQuietTime_same (s : State) : s.moveQuietTime.vw.SameWatch s.vw := by
  unfold State.moveQuietTime
  split
  · exact .rfl
  split
  · dsimp only
    split <;> simp [VibrationWatch.SameWatch]
  · simp [VibrationWatch.SameWatch]

/-- The blocks of an evaluation are judged well. -/
theorem State.evaluated_watchInv {s : State} (h : s.WatchInv) {e : Evaluation} (he : s.vw.evaluation = some e) :
    (s.evaluated e).WatchInv := by
  obtain ⟨⟨few, empty⟩, core⟩ := s.watchInv_iff.1 h
  have judged : ((s.reach e.due).judgeAll e.latched).WatchInv := by
    have all : ((s.reach e.due).judgeAll e.latched).vw.Core ∧ ((s.reach e.due).judgeAll e.latched).vw.fifo = s.vw.fifo ∧
        ((s.reach e.due).judgeAll e.latched).vw.evaluation = some e := by
      unfold State.judgeAll
      refine foldl_keeps_mem (P := fun u : State => u.vw.Core ∧ u.vw.fifo = s.vw.fifo ∧ u.vw.evaluation = some e)
        (fun u l hl hu => ?_) ⟨core, rfl, he⟩
      obtain ⟨uCore, uFifo, uEvaluation⟩ := hu
      obtain ⟨fifo, evaluation⟩ := u.judgeBlock_fifo l
      exact ⟨State.judgeBlock_core uCore uEvaluation hl, fifo.trans uFifo, evaluation.trans uEvaluation⟩
    obtain ⟨uCore, uFifo, uEvaluation⟩ := all
    refine (State.watchInv_iff _).2 ⟨⟨by rwa [uFifo], fun none => ?_⟩, uCore⟩
    rw [uEvaluation] at none
    cases none
  unfold State.evaluated
  dsimp only
  split
  · exact (judged.of_same (State.moveAlertTime_same _)).of_same (State.moveQuietTime_same _)
  · exact judged

theorem State.WatchInv.evaluationEnds {s : State} (h : s.WatchInv) : s.evaluationEnds.WatchInv := by
  cases e : s.vw.evaluation with
  | none => unfold State.evaluationEnds; rw [e]; exact h
  | some e' =>
    have reported : (s.dangersReported e').WatchInv :=
      State.dangersReported_of (State.evaluated_watchInv h e) fun _ c hu => hu.of_eq (by simp)
    obtain ⟨⟨few, -⟩, run, rx, seq, n, ok, -⟩ := (State.watchInv_iff _).1 reported
    rw [State.evaluationEnds_eq e]
    refine State.drain_watchInv (s := { s.dangersReported e' with vw := { (s.dangersReported e').vw with evaluation := none } })
      ⟨run, rx, seq, n, ok, fun _ none => ?_⟩ rfl few
    cases none

/-! ### The port and the resets -/

theorem State.portLost_watchInv {s : State} (run : s.vw.goodRun ≤ 4) (seq : ∀ q, s.vw.lastSeq = some q → q ≤ 255) (n : BlockLength s.vw.n)
    (ok : ∀ i, (s.vw.channels.get i).Ok s.vw.n) (latched : LatchedOk s.vw.channels s.vw.evaluation) : s.portLost.WatchInv := by
  have dropped : VibrationWatch.Core { s.vw with
      rx := .lost, fifo := [],
      channels := s.vw.channels.map fun c => if c.enabled then { c.newBlock with stuck := 0, lastRaw := none } else c } := by
    refine ⟨run, nofun, seq, n, fun i => ?_, fun e he l hl => ?_⟩
    · rw [Octet.get_map]
      split
      · exact (ok i).newBlock n.pos
      · exact ok i
    · rw [Octet.get_map]
      obtain ⟨peak, live⟩ := latched e he l hl
      refine ⟨peak, ?_⟩
      split <;> exact live
  refine State.WatchInv.of_same ((State.watchInv_iff _).2 ⟨⟨Nat.zero_le _, fun _ => rfl⟩, dropped⟩) (State.blindIf_same _ _)

theorem State.WatchInv.portLossExpires {s : State} (h : s.WatchInv) : s.portLossExpires.WatchInv := by
  obtain ⟨waiting, -, -, seq, n, ok, latched⟩ := s.watchInv_iff.1 h
  unfold State.portLossExpires
  split
  · exact h
  dsimp only
  split
  · exact State.portLost_watchInv (Nat.zero_le _) seq n ok latched
  case isFalse down =>
    exact (State.watchInv_iff _).2 ⟨waiting, Nat.zero_le _, fun up => absurd up down, seq, n, ok, latched⟩

/-- The reset values (R127). -/
theorem State.WatchInv.of_reset {t : State} (vw : t.vw = {}) : t.WatchInv := by
  have channel : ∀ g, SensorChannel.Ok { group := g } 1024 := fun g =>
    ⟨by norm_num, fun _ => ⟨rfl, rfl, rfl, rfl⟩, fun _ => ⟨rfl, rfl, rfl, rfl⟩, Nat.zero_le _, Nat.zero_le _, Nat.zero_le _, nofun⟩
  rw [State.watchInv_iff, vw]
  refine ⟨⟨Nat.zero_le _, fun _ => rfl⟩, Nat.zero_le _, nofun, nofun, by unfold BlockLength; norm_num, fun i => ?_, nofun⟩
  fin_cases i <;> exact channel _

theorem State.WatchInv.warmReset {s : State} (h : s.WatchInv) (e : Option Nat) : (s.warmReset e).WatchInv := by
  unfold State.warmReset
  split
  · exact h
  · exact .of_reset rfl

/-! ### The orders -/

/-- A channel behind SET SENSOR is enabled or not as the order says (R123). -/
theorem SensorChannel.setBy_level (c : SensorChannel) (o : Order) : (c.setBy o).level = .disabled ↔ (o.p 0 == 1) = false := by
  unfold SensorChannel.setBy SensorChannel.setEnable
  split
  case h_1 on => simp [on]
  case h_2 off => simp [off]
  case h_3 was on => simpa [on, SensorChannel.enabled] using was
  case h_4 was off => simpa [off, SensorChannel.enabled] using was

theorem SensorChannel.Ok.setBy {c : SensorChannel} {n : Nat} (h : c.Ok n) (pos : 0 < n) (o : Order) : (c.setBy o).Ok n := by
  obtain ⟨count, disabled, rest, peak, rms, lastPeak, injection⟩ := id h
  unfold SensorChannel.setBy SensorChannel.setEnable
  split
  case h_1 =>
    exact ⟨pos, nofun, fun _ => ⟨rfl, rfl, rfl, rfl⟩, Nat.zero_le _, Nat.zero_le _, Nat.zero_le _, injection⟩
  case h_2 =>
    exact ⟨pos, fun _ => ⟨rfl, rfl, rfl, rfl⟩, fun _ => ⟨rfl, rfl, rfl, rfl⟩, Nat.zero_le _, Nat.zero_le _, Nat.zero_le _, nofun⟩
  case h_3 => exact h
  case h_4 => exact h

theorem Evaluation.mem_drop {e : Evaluation} {i : Fin 8} {l : Latched} (h : l ∈ (e.drop i).latched) :
    ∃ m ∈ e.latched, l.channel = m.channel ∧ l.peak = m.peak ∧ l.dropped = (m.dropped || decide (m.channel = i)) := by
  obtain ⟨m, hm, rfl⟩ := List.mem_map.1 h
  refine ⟨m, hm, ?_⟩
  split
  case isTrue target => exact ⟨rfl, rfl, by simp [target]⟩
  case isFalse other => exact ⟨rfl, rfl, by simp [other]⟩

/-- Setting a channel keeps the watch well: the latched results of a channel that it disables are dropped (R123). -/
theorem setSensorOn_watchInv (o : Order) (s : State) (i : Fin 8) (h : s.WatchInv) : (setSensorOn o s i).WatchInv := by
  obtain ⟨⟨few, empty⟩, run, rx, seq, n, ok, latched⟩ := s.watchInv_iff.1 h
  rw [State.watchInv_iff, setSensorOn_vw]
  refine ⟨⟨few, fun none => empty ?_⟩, run, rx, seq, n, fun j => ?_, fun e he l hl => ?_⟩
  · dsimp only at none
    split at none
    · exact Option.map_eq_none_iff.1 none
    · exact none
  · rw [Octet.get_set]
    split
    · exact (ok i).setBy n.pos o
    · exact ok j
  · dsimp only at he
    rw [Octet.get_set]
    split at he
    case isTrue disables =>
      obtain ⟨e', he', rfl⟩ := Option.map_eq_some_iff.1 he
      obtain ⟨m, hm, channel, peak, dropped⟩ := Evaluation.mem_drop hl
      obtain ⟨small, live⟩ := latched e' he' m hm
      refine ⟨by rwa [peak], fun kept => ?_⟩
      rw [dropped, Bool.or_eq_false_iff] at kept
      rw [channel, if_neg (by simpa using kept.2)]
      exact live kept.1
    case isFalse keeps =>
      obtain ⟨small, live⟩ := latched e he l hl
      refine ⟨small, fun kept => ?_⟩
      split
      case isTrue target =>
        have on : (s.vw.channels.get i).enabled = true := by simpa [SensorChannel.enabled, ← target] using live kept
        intro off
        rw [SensorChannel.setBy_level] at off
        simp [on, off] at keeps
      case isFalse => exact live kept

/-- An injection in its ranges keeps an enabled channel well (R125). -/
theorem SensorChannel.Ok.inject {c : SensorChannel} {n value count : Nat} (h : c.Ok n) (on : c.enabled = true)
    (ranges : ∀ b ∈ [inRange value 0 32767, inRange count 1 255], b = true) :
    SensorChannel.Ok { c with injection := some ⟨value, count⟩ } n := by
  obtain ⟨block, disabled, rest, peak, rms, lastPeak, -⟩ := h
  have live : c.level ≠ .disabled := by simpa [SensorChannel.enabled] using on
  have inside : value ≤ 32767 ∧ 1 ≤ count ∧ count ≤ 255 := by simpa [inRange] using ranges
  refine ⟨block, fun off => absurd off live, rest, peak, rms, lastPeak, fun i hi => ?_⟩
  cases hi
  exact inside

/-- Every owner keeps the watch well. -/
theorem State.WatchInv.owner {s : State} (h : s.WatchInv) (k : OrderKind) (o : Order) : (k.owner o s).1.WatchInv := by
  cases k
  case setSensor =>
    show (ownSetSensor o s).1.WatchInv
    unfold ownSetSensor
    split
    · exact h
    · exact rangeChecked_keeps h fun _ => (foldl_keeps (setSensorOn_watchInv o) _ h).of_same (State.blindIf_same _ _)
  case setWatch =>
    refine rangeChecked_keeps h fun passes => ?_
    obtain ⟨waiting, run, rx, seq, n, ok, latched⟩ := s.watchInv_iff.1 h
    have length : BlockLength (o.p 0) := by
      have := firstBad_eq_none_iff.1 passes
      simp only [List.mem_cons, forall_eq_or_imp] at this
      simpa [BlockLength, or_assoc] using this.1
    refine (State.watchInv_iff _).2 ⟨waiting, run, rx, seq, length, fun i => ?_, fun e he l hl => ?_⟩
    · rw [Octet.get_map]
      split
      · exact (ok i).newBlock length.pos
      case isFalse off => exact (ok i).of_disabled (by simpa using off) length.pos
    · rw [Octet.get_map]
      obtain ⟨peak, live⟩ := latched e he l hl
      refine ⟨peak, ?_⟩
      split <;> exact live
  case run =>
    show (ownRun o s).1.WatchInv
    unfold ownRun
    split
    · exact h
    · exact h.of_same (State.blindIf_same _ _)
  case clearDerate =>
    show (ownClearDerate o s).1.WatchInv
    unfold ownClearDerate
    split
    · exact h
    split
    · exact h
    split
    · exact h
    · exact h.of_same (by simp [VibrationWatch.SameWatch])
  case injectLevel =>
    show (ownInjectLevel o s).1.WatchInv
    unfold ownInjectLevel
    split
    · split
      · exact h
      split
      · exact h
      case isFalse on =>
        refine rangeChecked_keeps h fun passes => ?_
        obtain ⟨waiting, core⟩ := s.watchInv_iff.1 h
        obtain ⟨-, -, -, -, ok, -⟩ := id core
        refine (State.watchInv_iff _).2 ⟨waiting, core.of_channels .rfl (fun j => ?_) fun j => ?_⟩
        · rw [Octet.get_set]
          split
          · exact (ok _).inject (by simpa using on) (firstBad_eq_none_iff.1 passes)
          · exact ok j
        · rw [Octet.get_set]
          split
          case isTrue target => rw [target]; exact id
          · exact id
    all_goals exact h
  case transferCounts =>
    exact (State.WatchInv.of_same (t := s.transfer) h .rfl).of_eq (by simp [OrderKind.owner, ownTransferCounts])
  all_goals exact h.of_eq (by simp [OrderKind.owner])

theorem State.WatchInv.exec {c : Instr} {s t : State} (h : s.WatchInv) (hc : exec c s = .next t) : t.WatchInv := by
  have kept : ∀ u : State, u.vw = s.vw → u.WatchInv := fun _ => h.of_eq
  have report : ∀ (u : State) c, u.WatchInv → (u.report c).WatchInv := fun u c hu => hu.of_eq (by simp)
  apply exec_cases (P := State.WatchInv) hc
  case same => exact h
  case powerOn => exact .of_reset rfl
  case pinLow => exact State.pinLow_of h (kept _ rfl) fun _ hu => hu.warmReset none
  case control => exact State.writeControl_of h report h.warmReset fun _ hu => hu.of_eq (by simp)
  case orders =>
    exact fun k => takeUp_keeps h (State.WatchInv.owner (s := s.countRecord) (h.of_eq (by simp)) k s.recordOrder)
      fun u off hd r hu => hu.of_eq (by simp)
  case synchronise =>
    intro r
    unfold State.synchronise
    split
    · exact h
    split
    · split <;> exact h
    · exact h
  case evaluation => exact h.evaluationEnds
  case sampleFrame => exact h.sampleFrame
  case portLoss => exact h.portLossExpires
  case reportTimer =>
    exact State.reportExpires_of h (fun _ => kept _ rfl) (fun _ hu => hu.of_same .rfl) fun _ hu => hu.of_eq (by simp)
  all_goals intros; exact kept _ (by simp)

/-- Settles O10. -/
theorem stepKeepsVibrationWatch : Obligations.StepKeepsVibrationWatch := by
  intro s t h hs
  exact step_keeps (P := State.WatchInv) (fun s rest h => h) (fun s h => h) (fun c s t h hc => h.exec hc) h hs

end Sys2Proof.Machine

/-! The invariant of both links and their regulators (R50, R62, R63, R67, R68, R73 to R75): each move of a link and of a regulator,
and the step (O11). -/

namespace Sys2Proof.Machine

/-! ### One link, one regulator -/

/-- What the invariant asks of a link. -/
def Link.Ok (l : Link) : Prop :=
  l.goodRun ≤ 4 ∧ (l.rx = .up → l.lossTimer.isSome = true) ∧ (∀ q, l.lastSeq = some q → q ≤ 255) ∧
  (l.breakHeld = true → l.synced = false) ∧ (l.holding.isSome = true → l.sending.isSome = true) ∧
  (∀ f, l.sending = some f → f.bytes.length = 6) ∧ (∀ c, l.holding = some c → c.Ok) ∧
  l.cmdSeq < 256 ∧ l.iavail ≤ 32767

/-- What the invariant asks of a regulator. -/
def Regulator.Ok (r : Regulator) : Prop := r.vlim ≤ 16384 ∧ -16384 ≤ r.lastVcmd ∧ r.lastVcmd ≤ 16384

theorem State.linkInv_iff (s : State) : s.LinkInv ↔ (∀ ch, (s.link.get ch).Ok) ∧ ∀ ch, (s.reg.get ch).Ok := by
  simp only [State.LinkInv, linkOk, Link.Ok, Regulator.Ok, and_assoc, forall_and]

/-- What one component and the change of another keep, the pair keeps. -/
theorem Pair.forall_modify {α : Type} {P : α → Prop} {p : Pair α} {k : Chan} {f : α → α} (h : ∀ ch, P (p.get ch)) (act : P (f (p.get k)))
    (ch : Chan) : P ((p.modify k f).get ch) := by
  rw [Pair.modify, Pair.get_set]
  split
  · exact act
  · exact h ch

theorem State.LinkInv.of_eq {s t : State} (h : s.LinkInv) (link : t.link = s.link) (reg : t.reg = s.reg) : t.LinkInv := by
  unfold State.LinkInv
  rw [link, reg]
  exact h

theorem State.LinkInv.modLink {s : State} {ch : Chan} {f : Link → Link} (h : s.LinkInv) (act : (s.link.get ch).Ok → (f (s.link.get ch)).Ok) :
    (s.modLink ch f).LinkInv := by
  obtain ⟨links, regs⟩ := s.linkInv_iff.1 h
  exact (State.linkInv_iff _).2 ⟨Pair.forall_modify links (act (links ch)), regs⟩

theorem State.LinkInv.modReg {s : State} {ch : Chan} {f : Regulator → Regulator} (h : s.LinkInv)
    (act : (s.reg.get ch).Ok → (f (s.reg.get ch)).Ok) : (s.modReg ch f).LinkInv := by
  obtain ⟨links, regs⟩ := s.linkInv_iff.1 h
  exact (State.linkInv_iff _).2 ⟨links, Pair.forall_modify regs (act (regs ch))⟩

/-! ### The transmitter (R73 to R76) -/

theorem commandFrame_length (c : Command) (seq : Nat) : (commandFrame c seq).length = 6 := rfl

theorem Command.ok_block : Command.Ok ⟨false, 0⟩ := by
  simp [Command.Ok]

theorem Link.Ok.startFrame {l : Link} (h : l.Ok) (c : Command) (now : Nat) : (l.startFrame c now).Ok := by
  obtain ⟨run, rx, seq, held, -, -, holding, -, avail⟩ := h
  refine ⟨run, rx, seq, held, fun _ => rfl, fun f hf => ?_, holding, Nat.mod_lt _ (by norm_num), avail⟩
  cases hf
  rw [Command.bytes_spec]
  exact commandFrame_length _ _

theorem Link.Ok.handOver {l : Link} (h : l.Ok) {c : Command} (ok : c.Ok) (now : Nat) : (l.handOver c now).Ok := by
  unfold Link.handOver
  split
  · exact h.startFrame c now
  case h_2 sending =>
    obtain ⟨run, rx, seq, held, -, bytes, -, rest⟩ := h
    refine ⟨run, rx, seq, held, fun _ => by rw [sending]; rfl, bytes, fun d hd => ?_, rest⟩
    cases hd
    exact ok

theorem Link.Ok.transmitDone {l : Link} (h : l.Ok) (now : Nat) : (l.transmitDone now).Ok := by
  unfold Link.transmitDone
  split
  case h_1 c _ =>
    obtain ⟨run, rx, seq, held, -, bytes, -, rest⟩ := h.startFrame c now
    exact ⟨run, rx, seq, held, nofun, bytes, nofun, rest⟩
  case h_2 none =>
    obtain ⟨run, rx, seq, held, -, -, holding, rest⟩ := h
    exact ⟨run, rx, seq, held, fun holds => by simp [none] at holds, nofun, holding, rest⟩

/-! ### The regulator (R47, R50) -/

theorem Regulator.Ok.block {r : Regulator} (h : r.Ok) : r.block.Ok := ⟨h.1, by simp [Regulator.block], by simp [Regulator.block]⟩

/-- An arrival hands over a frame within ±Vlim, 0 in a BLOCK frame. -/
theorem Regulator.Ok.arrival {r : Regulator} (h : r.Ok) (iref imeas : Int) : (r.arrival iref imeas).1.Ok ∧ (r.arrival iref imeas).2.Ok := by
  obtain ⟨vlim, low, high⟩ := h
  unfold Regulator.arrival
  split
  · exact ⟨⟨vlim, by simp, by simp⟩, Command.ok_block⟩
  split
  · obtain ⟨lower, upper⟩ : -(r.vlim : Int) ≤ r.voltage (iref - imeas) ∧ r.voltage (iref - imeas) ≤ r.vlim := clamp_mem (by omega)
    exact ⟨⟨vlim, by simp only; omega, by simp only; omega⟩, by simp only; omega, by simp only; omega, nofun⟩
  · exact ⟨⟨vlim, low, high⟩, Command.ok_block⟩

/-! ### The operations -/

theorem State.LinkInv.report {s : State} (h : s.LinkInv) (c : Cause) : (s.report c).LinkInv := by
  unfold State.report
  split
  · exact h.of_eq (by simp) (by simp)
  · obtain ⟨links, regs⟩ := s.linkInv_iff.1 h
    refine (State.linkInv_iff _).2 ⟨fun ch => ?_, fun ch => ?_⟩
    · rw [State.firstCause_link, Pair.get_map]
      exact (links ch).handOver Command.ok_block _
    · rw [State.firstCause_reg, Pair.get_map]
      exact (regs ch).block

theorem State.LinkInv.of_reset {t : State} (link : t.link = ⟨{}, {}⟩) (reg : t.reg = ⟨{}, {}⟩) : t.LinkInv := by
  rw [State.linkInv_iff, link, reg]
  have l : Link.Ok {} := ⟨by norm_num, nofun, nofun, nofun, nofun, nofun, nofun, by norm_num, by norm_num⟩
  have r : Regulator.Ok {} := ⟨by norm_num, by norm_num, by norm_num⟩
  exact ⟨fun ch => by cases ch <;> exact l, fun ch => by cases ch <;> exact r⟩

theorem State.LinkInv.warmReset {s : State} (h : s.LinkInv) (e : Option Nat) : (s.warmReset e).LinkInv := by
  unfold State.warmReset
  split
  · exact h
  · exact .of_reset rfl rfl

/-- The bytes of a measure frame give a sequence of one byte and an Iavail of at most 32767 (R63). -/
theorem Link.Ok.accept {l : Link} (h : l.Ok) (bytes : List Byte) (expiry : Nat) : (l.accept (decodeMeasure bytes) expiry).Ok := by
  obtain ⟨-, -, -, held, holding, sent, commands, seq, -⟩ := h
  refine ⟨min_le_right _ _, fun _ => rfl, fun q hq => ?_, held, holding, sent, commands, seq, min_le_right _ _⟩
  cases hq
  exact Nat.le_of_lt_succ (BitVec.isLt _)

theorem State.LinkInv.regulated {s : State} (h : s.LinkInv) (ch : Chan) (bytes : List Byte) :
    (s.regulated ch (decodeMeasure bytes)).LinkInv := by
  have accepted : ((s.modLink ch fun l => l.accept (decodeMeasure bytes) (s.now + s.tloss)).notifyIf (s.link.get ch).rises .link).LinkInv :=
    State.LinkInv.of_eq
      (h.modLink (ch := ch) (f := fun l => l.accept (decodeMeasure bytes) (s.now + s.tloss)) fun ok => ok.accept bytes _) (by simp) (by simp)
  obtain ⟨-, regs⟩ := (State.linkInv_iff _).1 accepted
  obtain ⟨arrived, command⟩ := (regs ch).arrival (((s.modLink ch fun l => l.accept (decodeMeasure bytes) (s.now + s.tloss)).notifyIf
    (s.link.get ch).rises .link).tru.iref.get ch) (decodeMeasure bytes).imeas
  unfold State.regulated
  exact State.LinkInv.modLink (accepted.modReg fun _ => arrived) fun ok => ok.handOver command _

/-- A loss timer that expires leaves the link not UP (R68). -/
theorem State.LinkInv.linkLossExpires {s : State} (h : s.LinkInv) (ch : Chan) : (s.linkLossExpires ch).LinkInv := by
  unfold State.linkLossExpires
  split
  · exact h
  dsimp only
  obtain ⟨links, regs⟩ := s.linkInv_iff.1 h
  obtain ⟨-, -, seq, held, rest⟩ := links ch
  split
  · refine State.reportIf_of (P := State.LinkInv) (fun _ c hu => hu.report c) ?_ _ _
    refine (State.linkInv_iff _).2 ⟨fun k => ?_, regs⟩
    simp only [State.notify_link, State.modLink_link, State.reach_link, Pair.modify, Pair.get_set, if_true]
    split
    · exact ⟨Nat.zero_le _, nofun, seq, held, rest⟩
    · exact links k
  case isFalse down =>
    refine State.LinkInv.modLink (s := s.reach _) h fun _ => ?_
    have stays : (s.link.get ch).rx ≠ .up := by simpa [Pair.modify, Pair.get_set] using down
    exact ⟨Nat.zero_le _, fun up => absurd up stays, seq, held, rest⟩

theorem setLoopOn_linkInv {kp ki vlim : Nat} (small : vlim ≤ 16384) (s : State) (ch : Chan) (h : s.LinkInv) :
    (setLoopOn kp ki vlim s ch).LinkInv := by
  unfold setLoopOn
  refine State.LinkInv.of_eq (s := s.modReg ch fun r => { r with kp := kp, ki := ki, vlim := vlim }) (h.modReg fun ok => ?_) rfl rfl
  exact ⟨small, ok.2⟩

theorem setLimitsOn_linkInv (ioc lba lneg : Nat) (s : State) (ch : Chan) (h : s.LinkInv) : (setLimitsOn ioc lba lneg s ch).LinkInv := by
  unfold setLimitsOn
  exact State.LinkInv.of_eq (s := s.modReg ch fun r => { r with ioc := ioc }) (h.modReg fun ok => ok) rfl rfl

theorem State.LinkInv.startRun {s : State} (h : s.LinkInv) : s.startRun.LinkInv := by
  obtain ⟨links, regs⟩ := s.linkInv_iff.1 h
  refine (State.linkInv_iff _).2 ⟨by simpa [State.startRun] using links, fun ch => ?_⟩
  simp only [State.startRun, State.blindIf_keeps, State.notify_reg, Pair.get_build]
  split
  · exact regs ch
  · exact regs ch

theorem State.LinkInv.transfer {s : State} (h : s.LinkInv) : s.transfer.LinkInv := by
  obtain ⟨links, regs⟩ := s.linkInv_iff.1 h
  refine (State.linkInv_iff _).2 ⟨fun ch => ?_, regs⟩
  simp only [State.transfer, State.zeroLiveCounts, Pair.get_map]
  exact links ch

theorem State.LinkInv.stopHoldExpires {s : State} (h : s.LinkInv) : s.stopHoldExpires.LinkInv := by
  unfold State.stopHoldExpires
  split
  · exact h
  dsimp only
  split
  · obtain ⟨links, regs⟩ := s.linkInv_iff.1 h
    refine (State.linkInv_iff _).2 ⟨links, fun ch => ?_⟩
    simp only [State.enterStopped, State.notify_reg, State.reach_reg, Pair.get_map]
    exact (regs ch).block
  · exact h

/-- Every owner keeps the links and regulators well. -/
theorem State.LinkInv.owner {s : State} (h : s.LinkInv) (k : OrderKind) (o : Order) : (k.owner o s).1.LinkInv := by
  cases k
  case setLoop =>
    show (ownSetLoop o s).1.LinkInv
    unfold ownSetLoop
    split
    · exact h
    · refine rangeChecked_keeps h fun passes => foldl_keeps (setLoopOn_linkInv ?_) _ h
      simpa [inRange] using firstBad_eq_none_iff.1 passes
  case setLimits =>
    show (ownSetLimits o s).1.LinkInv
    unfold ownSetLimits
    split
    · exact h
    · exact rangeChecked_keeps h fun _ => foldl_keeps (setLimitsOn_linkInv _ _ _) _ (h.of_eq rfl rfl)
  case run =>
    show (ownRun o s).1.LinkInv
    unfold ownRun
    split
    · exact h
    · exact h.startRun
  case testTrip =>
    show (ownTestTrip o s).1.LinkInv
    unfold ownTestTrip
    split
    · exact h.report .test
    · exact h
  case transferCounts =>
    exact h.transfer.of_eq (by simp [OrderKind.owner, ownTransferCounts]) (by simp [OrderKind.owner, ownTransferCounts])
  all_goals exact h.of_eq (by simp [OrderKind.owner]) (by simp [OrderKind.owner])

/-- Every command keeps the links and regulators well. -/
theorem State.LinkInv.exec {c : Instr} {s t : State} (h : s.LinkInv) (hc : exec c s = .next t) : t.LinkInv := by
  have kept : ∀ u : State, u.link = s.link → u.reg = s.reg → u.LinkInv := fun _ => h.of_eq
  have moved : ∀ u v : State, WatchMoves u v → u.LinkInv → v.LinkInv := fun u v m hu => hu.of_eq m.link m.reg
  have report : ∀ (u : State) c, u.LinkInv → (u.report c).LinkInv := fun u c hu => hu.report c
  apply exec_cases (P := State.LinkInv) hc
  case same => exact h
  case powerOn => exact .of_reset rfl rfl
  case pinLow => exact State.pinLow_of h (kept _ rfl rfl) fun _ hu => hu.warmReset none
  case control => exact State.writeControl_of h report h.warmReset fun _ hu => hu.of_eq (by simp) (by simp)
  case orders =>
    exact fun k => takeUp_keeps h (State.LinkInv.owner (s := s.countRecord) (h.of_eq (by simp) (by simp)) k s.recordOrder)
      fun u off hd r hu => hu.of_eq (by simp) (by simp)
  case truExpires =>
    exact State.truExpires_of h report fun due => kept _ (by simp [State.computed, State.counted, State.truDue])
      (by simp [State.computed, State.counted, State.truDue])
  case breakAway => exact State.breakAwayExpires_of h report fun _ => kept _ rfl rfl
  case stopHold => exact h.stopHoldExpires
  case linkFrame =>
    refine fun ch => State.linkFrame_of h report (h.modLink fun ok => ?_) (h.modLink fun ok => ?_) fun bytes => h.regulated ch bytes
    · obtain ⟨-, rest⟩ := ok
      exact ⟨Nat.zero_le _, rest⟩
    · obtain ⟨-, rest⟩ := ok
      exact ⟨Nat.zero_le _, rest⟩
  case synchronise =>
    intro r
    unfold State.synchronise
    split
    · exact h
    split
    · split
      · exact h
      case isFalse free =>
        refine h.modLink fun ok => ?_
        obtain ⟨run, rx, seq, -, rest⟩ := ok
        exact ⟨run, rx, seq, fun held => absurd held free, rest⟩
    · exact h
  case breakDetected =>
    refine fun ch => State.breakDetected_of h report (h.modLink fun ok => ?_)
    obtain ⟨-, rx, seq, -, rest⟩ := ok
    exact ⟨Nat.zero_le _, rx, seq, fun _ => rfl, rest⟩
  case breakCleared =>
    refine fun ch => h.modLink fun ok => ?_
    obtain ⟨run, rx, seq, -, rest⟩ := ok
    exact ⟨run, rx, seq, nofun, rest⟩
  case linkLoss => exact h.linkLossExpires
  case transmit =>
    intro ch
    unfold State.transmitCompletes
    split
    · exact h
    · exact State.LinkInv.modLink (s := s.reach _) h fun ok => ok.transmitDone _
  case evaluation => exact State.evaluationEnds_of h report moved
  case sampleFrame => exact fun f => moved s _ (s.sampleFrame_moves f) h
  case portLoss => exact moved s _ s.portLossExpires_moves h
  case filter => exact State.externalExpires_of h report fun _ => kept _ rfl rfl
  case reportTimer =>
    exact State.reportExpires_of h (fun _ => kept _ rfl rfl) (fun _ hu => hu.transfer) fun _ hu => hu.of_eq (by simp) (by simp)
  all_goals intros; exact kept _ (by simp) (by simp)

/-- Settles O11. -/
theorem stepKeepsLinks : Obligations.StepKeepsLinks := by
  intro s t h hs
  exact step_keeps (P := State.LinkInv) (fun s rest h => h) (fun s h => h) (fun c s t h hc => h.exec hc) h hs

end Sys2Proof.Machine

/-! The sizes of what is written into exchange memory and the walker's bounds (R149, R151, R168, 11.5), the canonical form of exchange
memory (O4), the record slots and the history ring (O12). -/

namespace Sys2Proof.Machine

/-! ### Sizes, block by block -/

/-- The tables of the working revolution and of the revolutions handed to publication have 32 entries. -/
def PositionTracker.Sized (p : PositionTracker) : Prop :=
  p.table.length = 32 ∧ (∀ q, p.inFlight = some q → q.rev.table.length = 32) ∧ ∀ r, p.waiting = some r → r.table.length = 32

/-- The report in flight has 240 words, the values of one that waits are 47. -/
def ReportUnit.Sized (r : ReportUnit) : Prop :=
  (∀ ws, r.inFlight = some ws → ws.length = 240) ∧ ∀ vs, r.waiting = some vs → vs.length = 47

/-- The copy has 127 header words and at most pre count snapshots, of which there are at most 96. -/
def RecordCapture.Sized (r : RecordCapture) : Prop :=
  (∀ j, r.copy = some j → j.header.length = 127 ∧ j.pre.length ≤ r.preCount) ∧ r.preCount ≤ 96

/-- The next offset lies in the chain region or just behind it, and the order index is at most 64 in a walk. -/
def Walker.Bounded (w : Walker) : Prop :=
  (0x0400 ≤ w.nextOffset ∧ w.nextOffset ≤ 0x1000) ∧ w.orderIndex ≤ 65 ∧ (w.walking = true → w.orderIndex ≤ 64)

theorem State.layoutInv_iff (s : State) : s.LayoutInv ↔ s.pt.Sized ∧ s.rn.Sized ∧ s.rcu.Sized ∧ s.cw.Bounded := by
  simp only [State.LayoutInv, PositionTracker.Sized, ReportUnit.Sized, RecordCapture.Sized, Walker.Bounded, and_assoc]

theorem State.LayoutInv.of_blocks {s t : State} (h : s.LayoutInv) (pt : s.pt.Sized → t.pt.Sized) (rn : s.rn.Sized → t.rn.Sized)
    (rcu : s.rcu.Sized → t.rcu.Sized) (cw : s.cw.Bounded → t.cw.Bounded) : t.LayoutInv := by
  obtain ⟨hpt, hrn, hrcu, hcw⟩ := s.layoutInv_iff.1 h
  exact t.layoutInv_iff.2 ⟨pt hpt, rn hrn, rcu hrcu, cw hcw⟩

/-! #### The position tracker -/

theorem PositionTracker.Sized.folded {p q : PositionTracker} (h : p.Sized) (f : p.Folded q) : q.Sized := by
  obtain ⟨e, length, -⟩ := f
  obtain ⟨table, flight, waiting⟩ := h
  unfold PositionTracker.Sized
  rw [e]
  exact ⟨length.trans table, flight, waiting⟩

theorem PositionTracker.Sized.boundary {p : PositionTracker} (h : p.Sized) (kind : BoundaryKind) (becomes : Tracking) (t : Nat) :
    (p.boundary kind becomes t).Sized := by
  obtain ⟨table, flight, waiting⟩ := h
  obtain ⟨ended, same, -, -, -, -, -, e⟩ := p.boundary_spec kind becomes t
  rw [e]
  refine ⟨rfl, fun q hq => ?_, fun r hr => ?_⟩
  · dsimp only at hq
    split at hq
    · cases hq
      exact same ▸ table
    · exact flight q hq
  · dsimp only at hr
    split at hr
    · cases hr
      exact same ▸ table
    · exact waiting r hr

theorem PositionTracker.Sized.quadrature {p : PositionTracker} (h : p.Sized) (c : Fin 4) (t : Nat) : (p.quadrature c t).Sized := by
  refine PositionTracker.quadrature_of h (fun _ _ hq => hq) (fun _ _ hq => hq) (fun q t hq => ?_) (fun _ hq => hq) c t
  unfold PositionTracker.missedMarker
  split
  · exact PositionTracker.Sized.boundary (p := { q with wrapped := false }) hq _ _ t
  · exact hq

theorem PositionTracker.Sized.marker {p : PositionTracker} (h : p.Sized) (t : Nat) : (p.marker t).Sized := by
  unfold PositionTracker.marker
  dsimp only
  split
  · exact h.boundary .inWindow .tracking t
  · exact h.boundary .outOfWindow .uncertain t

theorem State.completePublication_sized {s : State} (h : s.pt.Sized) : s.completePublication.pt.Sized := by
  unfold State.completePublication
  split
  · exact h
  case h_2 pub flight =>
    obtain ⟨table, -, waiting⟩ := h
    dsimp only
    split
    · exact ⟨table, nofun, nofun⟩
    case h_2 r waits =>
      refine ⟨table, fun q hq => ?_, nofun⟩
      cases hq
      exact waiting r waits

/-! #### Reports -/

theorem ReportUnit.Sized.beginReport {r : ReportUnit} (h : r.Sized) {values : List Word} (length : values.length = 47) :
    (r.beginReport values).Sized := by
  obtain ⟨-, waiting⟩ := h
  obtain ⟨marks, -, -, e⟩ := r.beginReport_spec values
  rw [e]
  refine ⟨fun ws hws => ?_, waiting⟩
  cases hws
  have counts : r.transferred.toList.length = 10 := rfl
  simp only [List.length_append, List.length_map, List.length_cons, List.length_nil, List.length_replicate, length, counts]

theorem State.requestReport_sized {s : State} (h : s.rn.Sized) : s.requestReport.rn.Sized := by
  have length : s.reportValues.length = 47 := s.reportValues_spec.1
  unfold State.requestReport
  split
  · exact h.beginReport length
  · refine ⟨h.1, fun vs hvs => ?_⟩
    cases hvs
    exact length

theorem State.completeReport_sized {s : State} (h : s.rn.Sized) : s.completeReport.rn.Sized := by
  unfold State.completeReport
  split
  · exact h
  · obtain ⟨-, waiting⟩ := h
    have idle : ReportUnit.Sized { s.rn with inFlight := none, waiting := none, notice := s.rn.notice ||| Notice.report.mark } :=
      ⟨nofun, nofun⟩
    dsimp only
    split
    · exact idle
    case h_2 values waits => exact idle.beginReport (waiting values waits)

/-! #### Record capture -/

theorem ringRun_length_le (ring : List (Nat × Snapshot)) (start n : Nat) : (ringRun ring start n).length ≤ n := by
  induction n generalizing start with
  | zero => simp [ringRun]
  | succ n ih =>
    have := ih (start + 1)
    have one : ∀ o : Option Snapshot, o.toList.length ≤ 1 := fun o => by cases o <;> simp
    have := one (ringAt ring (start % Config.ringPlaces))
    simp only [ringRun, List.length_append]
    omega

theorem State.report_rcu_sized {s : State} (h : s.rcu.Sized) (c : Cause) : (s.report c).rcu.Sized := by
  unfold State.report
  split
  · simpa using h
  · obtain ⟨j, e⟩ := s.firstCause_rcu c
    cases slot : s.chooseSlot with
    | none => rw [e, slot]; exact h
    | some n =>
      have copy := s.firstCause_copy c n slot
      rw [e, slot] at copy ⊢
      refine ⟨fun k hk => ?_, min_le_left _ _⟩
      rw [show some j = some k from hk] at copy
      cases copy
      exact ⟨(s.headerWords_spec c).1, ringRun_length_le _ _ _⟩

/-- The window's count, and its close, move the capture and its copy alone of record capture. -/
theorem State.countWindow_rcu (s : State) :
    s.countWindow.rcu = { s.rcu with capture := s.countWindow.rcu.capture, copy := s.countWindow.rcu.copy } ∧
      (s.countWindow.rcu.copy = s.rcu.copy ∨ s.countWindow.rcu.copy = none) := by
  unfold State.countWindow
  split
  · exact ⟨rfl, .inl rfl⟩
  split
  · rw [State.closeWindow_rcu]
    refine ⟨rfl, ?_⟩
    dsimp only
    split
    · exact .inr rfl
    · exact .inl rfl
  · exact ⟨rfl, .inl rfl⟩

/-- The number of the snapshot that a hand-off makes (R144). -/
def State.nextSnapshot (s : State) : Snapshot :=
  State.snapshot { s with tru := { s.tru with snapNumber := (s.tru.snapNumber + 1) % 65536 } }

/-- A hand-off places its snapshot into the ring, and keeps the pre count. -/
theorem State.handOff_rcu (s : State) :
    s.handOff.rcu.ring = ((s.nextSnapshot.number + 65535) % 65536 % Config.ringPlaces, s.nextSnapshot) ::
        s.rcu.ring.filter (fun e => e.1 != (s.nextSnapshot.number + 65535) % 65536 % Config.ringPlaces) ∧
      s.handOff.rcu.fillCount = min (s.rcu.fillCount + 1) Config.ringPlaces ∧
      s.handOff.rcu.preCount = s.rcu.preCount ∧ (s.handOff.rcu.copy = s.rcu.copy ∨ s.handOff.rcu.copy = none) := by
  generalize placed : State.placeSnapshot { s with tru := { s.tru with snapNumber := (s.tru.snapNumber + 1) % 65536 } } s.nextSnapshot = p
  have e : s.handOff = (p.appendSnapshot s.nextSnapshot).countWindow := by rw [← placed]; rfl
  obtain ⟨rcu, copy⟩ := (p.appendSnapshot s.nextSnapshot).countWindow_rcu
  rw [State.appendSnapshot_rcu] at copy
  rw [e, rcu, State.appendSnapshot_rcu, ← placed] at *
  exact ⟨rfl, rfl, rfl, copy⟩

/-- A computation sizes no copy anew (R151). -/
theorem State.computed_rcu_sized {s : State} (h : s.rcu.Sized) : s.computed.rcu.Sized := by
  have counted : s.counted.rcu = s.rcu := by simp [State.counted]
  have sector : s.computed.rcu = s.counted.handOff.rcu := by simp [State.computed]
  obtain ⟨-, -, pre, copy⟩ := s.counted.handOff_rcu
  obtain ⟨sized, small⟩ := h
  rw [counted] at pre copy
  unfold RecordCapture.Sized
  rw [sector, pre]
  refine ⟨fun j hj => ?_, small⟩
  rcases copy with same | none
  · exact sized j (same ▸ hj)
  · rw [none] at hj
    cases hj

theorem State.completeCopy_rcu_sized {s : State} (h : s.rcu.Sized) : s.completeCopy.rcu.Sized := by
  obtain ⟨sized, small⟩ := h
  rw [State.completeCopy_rcu]
  refine ⟨fun j hj => ?_, small⟩
  dsimp only at hj
  split at hj
  · cases hj
  · exact sized j hj

/-! #### The walker -/

/-- What makes the walker take up a record (R168). -/
theorem State.recordKind_eq_some {s : State} {k : OrderKind} (h : s.recordKind = some k) :
    s.cw.walking = true ∧ s.cw.orderIndex < 64 ∧ s.recordHeader.length = k.length ∧ s.cw.nextOffset + k.length ≤ 0x1000 := by
  unfold State.recordKind at h
  split at h
  case isTrue ready =>
    obtain ⟨walking, format⟩ := ready
    unfold State.formatFault at format
    rw [h] at format
    dsimp only at format
    split at format
    · cases format
    split at format
    · cases format
    split at format
    · cases format
    split at format
    · cases format
    have := k.two_le_length
    refine ⟨walking, by omega, by omega, by omega⟩
  case isFalse => cases h

theorem Walker.Bounded.ended {w : Walker} (h : w.Bounded) (o : WalkOutcome) : Walker.Bounded { w with walking := false, outcome := o } := by
  obtain ⟨next, index, -⟩ := h
  exact ⟨next, index, nofun⟩

theorem State.writeChainStart_bounded {s : State} (h : s.cw.Bounded) (w : Word) : (s.writeChainStart w).cw.Bounded := by
  unfold State.writeChainStart
  split
  · exact h
  split
  · exact h
  case isFalse idle =>
  split
  case isTrue region =>
    obtain ⟨low, high⟩ := region
    exact ⟨⟨low, by simp only; omega⟩, Nat.zero_le _, fun _ => Nat.zero_le _⟩
  case isFalse =>
    obtain ⟨next, -, -⟩ := h
    exact ⟨next, Nat.zero_le _, fun _ => Nat.zero_le _⟩

theorem State.takeUpFault_bounded {s : State} (h : s.cw.Bounded) : s.takeUpFault.cw.Bounded := by
  unfold State.takeUpFault
  split
  case h_1 walking _ =>
    obtain ⟨next, -, index⟩ := h
    have counted : Walker.Bounded { s.cw with orderIndex := s.cw.orderIndex + 1, walking := false } :=
      ⟨next, Nat.succ_le_succ (index walking), nofun⟩
    simpa using counted.ended .fault
  · exact h

/-- A take-up goes on behind its record, which ends in the chain region, or ends the walk (R168, R170). -/
theorem State.finishRecord_bounded {s u : State} {k : OrderKind} (ready : s.recordKind = some k) (h : s.cw.Bounded) (cw : u.cw = s.countRecord.cw)
    (r : OrderResult) : (u.finishRecord s.cw.nextOffset s.recordHeader r).cw.Bounded := by
  obtain ⟨walking, index, length, fits⟩ := State.recordKind_eq_some ready
  obtain ⟨⟨low, high⟩, -, -⟩ := h
  have counted : Walker.Bounded s.countRecord.cw :=
    ⟨⟨low, high⟩, by simp only [State.countRecord]; omega, fun _ => by simp only [State.countRecord]; omega⟩
  unfold State.finishRecord
  dsimp only
  split
  · simpa [cw] using counted.ended .refused
  split
  · simpa [cw] using counted.ended .ended
  · obtain ⟨-, bounds⟩ := counted
    simp only [State.writeResult_keeps, cw, length]
    exact ⟨⟨by simp only; omega, fits⟩, bounds⟩

/-! ### The report unit beside its notices -/

/-- The report unit but for the notices that are set. -/
def State.besideNotice (s : State) : ReportUnit := { s.rn with notice := 0 }

theorem State.besideNotice_of_eq {s t : State} (h : t.rn = s.rn) : t.besideNotice = s.besideNotice := by
  unfold State.besideNotice
  rw [h]

theorem WatchMoves.besideNotice {s t : State} (m : WatchMoves s t) : t.besideNotice = s.besideNotice := by
  unfold State.besideNotice
  rw [m.rn]

@[simp] theorem State.notifyIf_besideNotice (s : State) (b : Bool) (n : Notice) : (s.notifyIf b n).besideNotice = s.besideNotice :=
  (s.notifyIf_moves b n).besideNotice

@[simp] theorem State.report_besideNotice (s : State) (c : Cause) : (s.report c).besideNotice = s.besideNotice := by
  unfold State.report
  split
  · exact State.besideNotice_of_eq (by simp)
  · simp [State.besideNotice]

@[simp] theorem State.endWalk_besideNotice (s : State) (o : WalkOutcome) : (s.endWalk o).besideNotice = s.besideNotice := rfl

@[simp] theorem State.abandonWalk_besideNotice (s : State) : s.abandonWalk.besideNotice = s.besideNotice := by
  unfold State.abandonWalk
  split <;> rfl

@[simp] theorem State.writeResult_besideNotice (s : State) (off : Nat) (r : OrderResult) :
    (s.writeResult off r).besideNotice = s.besideNotice :=
  State.besideNotice_of_eq (by simp)

@[simp] theorem State.writeChainStart_besideNotice (s : State) (w : Word) : (s.writeChainStart w).besideNotice = s.besideNotice := by
  unfold State.writeChainStart
  (repeat' split) <;> rfl

@[simp] theorem State.takeUpFault_besideNotice (s : State) : s.takeUpFault.besideNotice = s.besideNotice := by
  unfold State.takeUpFault
  split
  · rw [State.endWalk_besideNotice, State.writeResult_besideNotice]
    rfl
  · rfl

@[simp] theorem State.finishRecord_besideNotice (s : State) (off : Nat) (h : Header) (r : OrderResult) :
    (s.finishRecord off h r).besideNotice = s.besideNotice := by
  unfold State.finishRecord
  dsimp only
  split
  · simp
  split
  · simp
  · exact s.writeResult_besideNotice off r

@[simp] theorem State.completeRecord_besideNotice (s : State) : s.completeRecord.besideNotice = s.besideNotice := by
  unfold State.completeRecord
  split
  · rfl
  · exact State.besideNotice_of_eq (s := s) (t := s.completeCopy) (by simp)

@[simp] theorem State.handOff_besideNotice (s : State) : s.handOff.besideNotice = s.besideNotice := by
  unfold State.handOff State.countWindow
  dsimp only
  split
  · exact State.besideNotice_of_eq (by simp)
  split
  · unfold State.closeWindow
    exact (State.completeRecord_besideNotice _).trans (State.besideNotice_of_eq (by simp))
  · exact State.besideNotice_of_eq (by simp)

@[simp] theorem State.readDemand_besideNotice (s : State) : s.readDemand.besideNotice = s.besideNotice := by
  unfold State.readDemand
  exact State.notifyIf_besideNotice _ _ _

@[simp] theorem State.computed_besideNotice (s : State) : s.computed.besideNotice = s.besideNotice := by
  unfold State.computed State.counted
  rw [State.besideNotice_of_eq (s := s.readDemand.computeTorque.evalStopHold.countWatches.handOff) (by simp), State.handOff_besideNotice,
    State.besideNotice_of_eq (s := s.readDemand) (by simp), State.readDemand_besideNotice]

@[simp] theorem State.evalStopHold_besideNotice (s : State) : s.evalStopHold.besideNotice = s.besideNotice :=
  State.besideNotice_of_eq (by simp)

@[simp] theorem State.enterStopping_besideNotice (s : State) : s.enterStopping.besideNotice = s.besideNotice := by
  unfold State.enterStopping
  exact State.evalStopHold_besideNotice _

@[simp] theorem State.speedWindow_besideNotice (s : State) : s.speedWindow.besideNotice = s.besideNotice := by
  unfold State.speedWindow State.useSpeed
  split
  · rfl
  dsimp only
  split
  · split <;> rfl
  · exact State.evalStopHold_besideNotice _
  all_goals rfl

@[simp] theorem State.stopHoldExpires_besideNotice (s : State) : s.stopHoldExpires.besideNotice = s.besideNotice := by
  unfold State.stopHoldExpires
  split
  · rfl
  · dsimp only
    split <;> rfl

@[simp] theorem State.completePublication_besideNotice (s : State) : s.completePublication.besideNotice = s.besideNotice := by
  unfold State.completePublication
  split
  · rfl
  · dsimp only
    split <;> rfl

@[simp] theorem State.regulated_besideNotice (s : State) (ch : Chan) (f : MeasureFrame) : (s.regulated ch f).besideNotice = s.besideNotice := by
  unfold State.regulated
  exact State.notifyIf_besideNotice _ _ _

theorem setSensorOn_moves (o : Order) (s : State) (i : Fin 8) : WatchMoves s (setSensorOn o s i) := by
  unfold setSensorOn
  dsimp only
  split
  · rfl
  · refine WatchMoves.trans ?_ (State.notifyLevel_moves _ _)
    rfl

theorem ownSetSensor_moves (o : Order) (s : State) : WatchMoves s (ownSetSensor o s).1 := by
  unfold ownSetSensor
  split
  · exact .rfl
  · exact rangeChecked_keeps .rfl fun _ =>
      (foldl_keeps (P := WatchMoves s) (fun _ _ m => m.trans (setSensorOn_moves o _ _)) _ .rfl).trans (State.blindIf_moves _ _)

/-- Every order but SET REPORT and TRANSFER COUNTS keeps the report unit but for the notices. -/
theorem OrderKind.owner_besideNotice {k : OrderKind} (report : k ≠ .setReport) (transfer : k ≠ .transferCounts) (o : Order) (s : State) :
    (k.owner o s).1.besideNotice = s.besideNotice := by
  cases k
  case setReport => exact absurd rfl report
  case transferCounts => exact absurd rfl transfer
  case setSensor =>
    exact (ownSetSensor_moves o s).besideNotice
  case run =>
    show (ownRun o s).1.besideNotice = _
    unfold ownRun
    split
    · rfl
    · exact (State.blindIf_moves _ _).besideNotice
  case stop =>
    show (ownStop o s).1.besideNotice = _
    unfold ownStop
    split
    · exact s.enterStopping_besideNotice
    · exact s.enterStopping_besideNotice
    all_goals rfl
  case tripReset =>
    show (ownTripReset o s).1.besideNotice = _
    unfold ownTripReset
    (repeat' split) <;> rfl
  case clearDerate =>
    show (ownClearDerate o s).1.besideNotice = _
    unfold ownClearDerate
    split
    · rfl
    split
    · rfl
    split
    · rfl
    · exact (s.setDerate_moves .none).zeroQuiet.besideNotice
  case testTrip =>
    show (ownTestTrip o s).1.besideNotice = _
    unfold ownTestTrip
    split
    · exact s.report_besideNotice .test
    · rfl
  all_goals exact State.besideNotice_of_eq (by simp [OrderKind.owner])

/-! ### The sizes are kept -/

/-- The reset values of the four blocks. -/
theorem sizes_of_reset (time : Nat) : PositionTracker.Sized { startTime := time } ∧ ReportUnit.Sized {} ∧ RecordCapture.Sized {} ∧
    Walker.Bounded {} :=
  ⟨⟨rfl, nofun, nofun⟩, ⟨nofun, nofun⟩, ⟨nofun, Nat.zero_le _⟩, ⟨⟨by norm_num, by norm_num⟩, Nat.zero_le _, nofun⟩⟩

theorem OrderKind.owner_cw (k : OrderKind) (o : Order) (s : State) : (k.owner o s).1.cw = s.cw := by
  cases k <;> simp [OrderKind.owner]

theorem PositionTracker.Sized.owner {s : State} (h : s.pt.Sized) (k : OrderKind) (o : Order) : (k.owner o s).1.pt.Sized := by
  have set : ∀ ch v, (s.setIsolation ch v).pt.Sized := fun ch v => by
    unfold State.setIsolation
    cases ch <;> exact h
  cases k
  case setPosition => exact rangeChecked_keeps (P := fun u => u.pt.Sized) h fun _ => ⟨rfl, h.2⟩
  case isolate => exact (isolation_of (P := fun u => u.pt.Sized) h set o).1
  case restore => exact (isolation_of (P := fun u => u.pt.Sized) h set o).2
  all_goals simpa [OrderKind.owner] using h

/-- Every command keeps the sizes of the position tracker's tables. -/
theorem PositionTracker.Sized.exec {c : Instr} {s t : State} (h : s.pt.Sized) (hc : exec c s = .next t) : t.pt.Sized := by
  have kept : ∀ u : State, u.pt = s.pt → u.pt.Sized := fun u e => e ▸ h
  have report : ∀ (u : State) c, u.pt.Sized → (u.report c).pt.Sized := fun u c hu => by simpa using hu
  have reset : ∀ u : State, u.pt.Sized → ∀ e, (u.warmReset e).pt.Sized := fun u hu e => by
    unfold State.warmReset
    split
    · exact hu
    · exact (sizes_of_reset _).1
  apply exec_cases (P := fun u => u.pt.Sized) hc
  case same => exact h
  case powerOn => exact (sizes_of_reset 0).1
  case pinLow => exact State.pinLow_of (P := fun u => u.pt.Sized) h h fun u hu => reset u hu none
  case control =>
    exact State.writeControl_of (P := fun u => u.pt.Sized) h report (reset s h) fun _ hu => by simpa using hu
  case orders =>
    exact fun k => takeUp_keeps (P := fun u => u.pt.Sized) h (PositionTracker.Sized.owner (s := s.countRecord) h k _)
      fun u off hd r hu => by simpa using hu
  case truExpires =>
    exact State.truExpires_of (P := fun u => u.pt.Sized) h report fun due => h.folded (State.computed_folded (s.truDue due))
  case speedWindow =>
    unfold State.speedWindow
    split
    · exact h
    · rw [State.useSpeed_pt]
      exact h
  case quadrature => exact fun _ c => h.quadrature c _
  case marker => exact fun _ => h.marker _
  case publication => exact State.completePublication_sized h
  case evaluation => exact h.folded s.evaluationEnds_folded
  case sampleFrame => exact fun f => h.folded (s.sampleFrame_folded f)
  case endInit =>
    unfold State.endInit
    split <;> exact h
  all_goals intros; exact kept _ (by simp)

/-- Every command keeps the sizes of reports. -/
theorem ReportUnit.Sized.exec {c : Instr} {s t : State} (h : s.rn.Sized) (hc : exec c s = .next t) : t.rn.Sized := by
  have kept : ∀ u v : State, v.besideNotice = u.besideNotice → u.rn.Sized → v.rn.Sized := fun u v e hu => by
    have hu : u.besideNotice.Sized := hu
    rwa [← e] at hu
  have report : ∀ (u : State) c, u.rn.Sized → (u.report c).rn.Sized := fun u c => kept u _ (u.report_besideNotice c)
  have reset : ∀ u : State, u.rn.Sized → ∀ e, (u.warmReset e).rn.Sized := fun u hu e => by
    unfold State.warmReset
    split
    · exact hu
    · exact (sizes_of_reset 0).2.1
  have alike : ∀ u : State, u.besideNotice = s.besideNotice → u.rn.Sized := fun u e => kept s u e h
  apply exec_cases (P := fun u => u.rn.Sized) hc
  case same => exact h
  case powerOn => exact (sizes_of_reset 0).2.1
  case pinLow => exact State.pinLow_of (P := fun u => u.rn.Sized) h h fun u hu => reset u hu none
  case control =>
    exact State.writeControl_of (P := fun u => u.rn.Sized) h report (reset s h) fun u => kept u _ u.abandonWalk_besideNotice
  case orders =>
    refine fun k => takeUp_keeps (P := fun u => u.rn.Sized) h ?_ fun u off hd r => kept u _ (u.finishRecord_besideNotice off hd r)
    by_cases reports : k = .setReport
    · subst reports
      exact rangeChecked_keeps (P := fun u => u.rn.Sized) h fun _ => h
    by_cases transfers : k = .transferCounts
    · subst transfers
      exact State.requestReport_sized (s := s.countRecord.transfer) h
    · exact kept s.countRecord _ (OrderKind.owner_besideNotice reports transfers _ _) h
  case truExpires =>
    exact State.truExpires_of (P := fun u => u.rn.Sized) h report fun due => kept (s.truDue due) _ (State.computed_besideNotice _) h
  case breakAway => exact State.breakAwayExpires_of (P := fun u => u.rn.Sized) h report fun _ => h
  case linkFrame =>
    exact fun ch => State.linkFrame_of (P := fun u => u.rn.Sized) h report h h fun bytes =>
      alike _ (s.regulated_besideNotice ch (decodeMeasure bytes))
  case breakDetected => exact fun ch => State.breakDetected_of (P := fun u => u.rn.Sized) h report h
  case linkLoss => exact fun ch => State.linkLossExpires_of (P := fun u => u.rn.Sized) h report (fun _ => h) fun _ => h
  case evaluation =>
    exact State.evaluationEnds_of (P := fun u => u.rn.Sized) h report fun u v m => kept u v m.besideNotice
  case sampleFrame => exact fun f => alike _ (s.sampleFrame_moves f).besideNotice
  case portLoss => exact alike _ s.portLossExpires_moves.besideNotice
  case filter => exact State.externalExpires_of (P := fun u => u.rn.Sized) h report fun _ => h
  case reportTimer =>
    exact State.reportExpires_of (P := fun u => u.rn.Sized) h (fun _ => h) (fun _ hu => hu) fun _ => State.requestReport_sized
  case report => exact State.completeReport_sized h
  case notice =>
    intro w
    unfold State.writeNotice
    split <;> exact h
  case mask =>
    intro w
    unfold State.writeMask
    split <;> exact h
  case endInit =>
    unfold State.endInit
    split <;> exact h
  case stopHold => exact alike _ s.stopHoldExpires_besideNotice
  case speedWindow => exact alike _ s.speedWindow_besideNotice
  case publication => exact alike _ s.completePublication_besideNotice
  case chainStart => exact fun w => alike _ (s.writeChainStart_besideNotice w)
  case formatFault => exact alike _ s.takeUpFault_besideNotice
  all_goals intros; exact alike _ (State.besideNotice_of_eq (by simp))

/-- Every command keeps the sizes of a record copy. -/
theorem RecordCapture.Sized.exec {c : Instr} {s t : State} (h : s.rcu.Sized) (hc : exec c s = .next t) : t.rcu.Sized := by
  have kept : ∀ u : State, u.rcu = s.rcu → u.rcu.Sized := fun u e => e ▸ h
  have report : ∀ (u : State) c, u.rcu.Sized → (u.report c).rcu.Sized := fun u c hu => State.report_rcu_sized hu c
  have reset : ∀ u : State, u.rcu.Sized → ∀ e, (u.warmReset e).rcu.Sized := fun u hu e => by
    unfold State.warmReset
    split
    · exact hu
    · exact (sizes_of_reset 0).2.2.1
  apply exec_cases (P := fun u => u.rcu.Sized) hc
  case same => exact h
  case powerOn => exact (sizes_of_reset 0).2.2.1
  case pinLow => exact State.pinLow_of (P := fun u => u.rcu.Sized) h h fun u hu => reset u hu none
  case control =>
    exact State.writeControl_of (P := fun u => u.rcu.Sized) h report (reset s h) fun _ hu => by simpa using hu
  case orders =>
    refine fun k => takeUp_keeps (P := fun u => u.rcu.Sized) h ?_ fun u off hd r hu => by simpa using hu
    cases k
    case testTrip =>
      show (ownTestTrip s.recordOrder s.countRecord).1.rcu.Sized
      unfold ownTestTrip
      split
      · exact report s.countRecord .test h
      · exact h
    all_goals exact kept _ (by simp [OrderKind.owner])
  case truExpires => exact State.truExpires_of (P := fun u => u.rcu.Sized) h report fun due => State.computed_rcu_sized (s := s.truDue due) h
  case breakAway => exact State.breakAwayExpires_of (P := fun u => u.rcu.Sized) h report fun _ => h
  case linkFrame =>
    exact fun ch => State.linkFrame_of (P := fun u => u.rcu.Sized) h report h h fun _ => kept _ (by simp [State.regulated])
  case breakDetected => exact fun ch => State.breakDetected_of (P := fun u => u.rcu.Sized) h report h
  case linkLoss => exact fun ch => State.linkLossExpires_of (P := fun u => u.rcu.Sized) h report (fun _ => h) fun _ => h
  case copy => exact State.completeCopy_rcu_sized h
  case evaluation => exact State.evaluationEnds_of (P := fun u => u.rcu.Sized) h report fun u v m hu => m.rcu ▸ hu
  case filter => exact State.externalExpires_of (P := fun u => u.rcu.Sized) h report fun _ => h
  case endInit =>
    unfold State.endInit
    split <;> exact h
  all_goals intros; exact kept _ (by simp)

/-- Every command keeps the walker's bounds. -/
theorem Walker.Bounded.exec {c : Instr} {s t : State} (h : s.cw.Bounded) (hc : exec c s = .next t) : t.cw.Bounded := by
  have kept : ∀ u : State, u.cw = s.cw → u.cw.Bounded := fun u e => e ▸ h
  have reset : ∀ u : State, u.cw.Bounded → ∀ e, (u.warmReset e).cw.Bounded := fun u hu e => by
    unfold State.warmReset
    split
    · exact hu
    · exact (sizes_of_reset 0).2.2.2
  apply exec_cases (P := fun u => u.cw.Bounded) hc
  case same => exact h
  case powerOn => exact (sizes_of_reset 0).2.2.2
  case pinLow => exact State.pinLow_of (P := fun u => u.cw.Bounded) h h fun u hu => reset u hu none
  case control =>
    refine State.writeControl_of (P := fun u => u.cw.Bounded) h (fun u c hu => by simpa using hu) (reset s h) fun u hu => ?_
    unfold State.abandonWalk
    split
    · exact hu.ended _
    · exact hu
  case chainStart => exact State.writeChainStart_bounded h
  case formatFault => exact State.takeUpFault_bounded h
  case orders =>
    intro k
    unfold takeUp
    split
    case isTrue ready => exact State.finishRecord_bounded ready h (OrderKind.owner_cw k _ _) _
    case isFalse => exact h
  all_goals intros; exact kept _ (by simp)

theorem State.LayoutInv.exec {c : Instr} {s t : State} (h : s.LayoutInv) (hc : exec c s = .next t) : t.LayoutInv := by
  obtain ⟨pt, rn, rcu, cw⟩ := s.layoutInv_iff.1 h
  exact t.layoutInv_iff.2 ⟨pt.exec hc, rn.exec hc, rcu.exec hc, cw.exec hc⟩

end Sys2Proof.Machine

/-! What the part writes into exchange memory: one rule for each operation that writes, over any property that the writes into a region
keep. From it the canonical form (O4), the state words of the slots and the history ring (O12). -/

namespace Sys2Proof.Machine

/-- A property of exchange memory that every write of a run into a region keeps. -/
def Memory.KeptBy (R : Nat → Prop) (Q : Memory → Prop) : Prop :=
  ∀ (m : Memory) (a : Nat) (ws : List Word), (∀ i < ws.length, R (a + i)) → Q m → Q (m.writeBlock a ws)

theorem Memory.keptBy_wf : Memory.KeptBy (fun _ => True) fun m => m.wf := fun _ a ws _ h => Memory.wf_writeBlock h a ws

/-- Writes elsewhere keep a word. -/
theorem Memory.keptBy_read {a : Nat} (inside : a < Config.xmWords) (w : Word) : Memory.KeptBy (· ≠ a) fun m => m.read a = w := by
  intro m b ws other h
  show (m.writeBlock b ws).read a = w
  rw [Memory.read_writeBlock m b ws a inside, dif_neg, h]
  rintro ⟨low, high⟩
  exact other (a - b) (by omega) (by omega)

section
variable {R : Nat → Prop} {Q : Memory → Prop} {s : State}

theorem Memory.KeptBy.write (kept : KeptBy R Q) {m : Memory} {a : Nat} (at' : R a) (w : Word) (h : Q m) : Q (m.write a w) :=
  kept m a [w] (fun i hi => by simpa [Nat.lt_one_iff.1 hi] using at') h

theorem Memory.KeptBy.writeAll (kept : KeptBy R Q) {m : Memory} {cells : List (Nat × Word)} (all : ∀ c ∈ cells, R c.1) (h : Q m) :
    Q (m.writeAll cells) :=
  foldl_keeps_mem (fun _ c hc hm => kept.write (all c hc) c.2 hm) h

/-- The entries of the chronicle lie in 0x0100 to 0x01FF (R131). -/
theorem chronicleOffset_bounds (i : Fin 32) : 0x0100 ≤ chronicleOffset i ∧ chronicleOffset i + 8 ≤ 0x0200 := by
  unfold chronicleOffset
  omega

/-- The region of the chronicle. -/
def Chronicle (a : Nat) : Prop := 0x0100 ≤ a ∧ a < 0x0200

theorem chronicle_at {k : Nat} (i : Fin 32) (hk : k < 8) : Chronicle (chronicleOffset i + k) := by
  obtain ⟨low, high⟩ := chronicleOffset_bounds i
  exact ⟨by omega, by omega⟩

theorem Memory.KeptBy.writeEntry (kept : KeptBy R Q) (entry : ∀ a, Chronicle a → R a) {m : Memory} (i : Fin 32) {words : List Word}
    (length : words.length = 8) (h : Q m) : Q (m.writeEntry i words) := by
  refine kept _ _ _ (fun k hk => entry _ (chronicle_at i ?_)) (kept _ _ _ (fun k hk => ?_) h)
  · simp only [List.length_take] at hk
    omega
  · rw [add_assoc]
    refine entry _ (chronicle_at i ?_)
    simp only [List.length_drop, length] at hk
    omega

/-! ### The operations that write -/

/-- A report writes an entry, and the state word of the slot it takes (R129, R131, R147). -/
theorem State.report_xm (kept : Memory.KeptBy R Q) (entry : ∀ a, Chronicle a → R a)
    (slot : s.rc.drive ≠ .tripped → ∀ n, s.chooseSlot = some n → R (slotStateOffset n)) (h : Q s.xm) (c : Cause) : Q (s.report c).xm := by
  unfold State.report
  split
  · simpa using h
  case isFalse first =>
    rw [State.firstCause_xm]
    refine kept.writeEntry entry _ rfl ?_
    cases free : s.chooseSlot with
    | none => exact h
    | some n => exact kept.write (slot first n free) _ h

theorem State.completeCopy_xm (kept : Memory.KeptBy R Q)
    (cells : ∀ n j, s.rcu.capture = some n → s.rcu.copy = some j → ∀ c ∈ j.cells n, R c.1)
    (count : ∀ n, s.rcu.capture = some n → R (slotStateOffset n + 14)) (h : Q s.xm) : Q s.completeCopy.xm := by
  unfold State.completeCopy
  split
  case h_1 n j capture copy => exact kept.write (count n capture) _ (kept.writeAll (cells n j capture copy) h)
  case h_2 => exact h

theorem State.appendSnapshot_xm (kept : Memory.KeptBy R Q) (x : Snapshot)
    (place : ∀ n, s.rcu.capture = some n → ∀ i < 16, R (placeOffset n (s.rcu.preCount + s.rcu.postCount) + i))
    (count : ∀ n, s.rcu.capture = some n → R (slotStateOffset n + 14)) (h : Q s.xm) : Q (s.appendSnapshot x).xm := by
  unfold State.appendSnapshot
  split
  · exact h
  case h_2 n capture =>
    have placed : Q (s.xm.writeBlock (placeOffset n (s.rcu.preCount + s.rcu.postCount)) x.words) :=
      kept _ _ _ (place n capture) h
    dsimp only
    split
    · exact placed
    · exact kept.write (count n capture) _ placed

theorem State.closeEntry_xm (kept : Memory.KeptBy R Q) (entry : ∀ a, Chronicle a → R a) (h : Q s.xm) : Q s.closeEntry.xm := by
  unfold State.closeEntry
  split
  · exact h
  case h_2 i _ => exact kept.write (entry _ (chronicle_at i (by norm_num))) _ (kept.write (entry _ (chronicle_at i (by norm_num))) _ h)

theorem causeListWords_length (l : List Cause) : (causeListWords l).length = 16 := by
  simp only [causeListWords, zeroWords, List.length_take, List.length_append, List.length_replicate]
  omega

/-- A record completed writes its copy, if one is in flight, its list and counts and its state word (R152). -/
theorem State.completeRecord_xm (kept : Memory.KeptBy R Q)
    (cells : ∀ n j, s.rcu.capture = some n → s.rcu.copy = some j → ∀ c ∈ j.cells n, R c.1)
    (header : ∀ n, s.rcu.capture = some n → ∀ i ≤ 31, R (slotStateOffset n + i)) (h : Q s.xm) : Q s.completeRecord.xm := by
  unfold State.completeRecord
  split
  · exact h
  case h_2 n capture =>
    have copied : Q s.completeCopy.xm := State.completeCopy_xm kept cells (fun n hn => header n hn 14 (by norm_num)) h
    refine kept.write (header n capture 0 (by norm_num)) _ (kept.write (header n capture 15 (by norm_num)) _
      (kept _ _ _ (fun i hi => ?_) copied))
    rw [causeListWords_length] at hi
    rw [add_assoc]
    exact header n capture (16 + i) (by omega)

/-- The count of a window writes at its close alone (R133, R134). -/
theorem State.countWindow_xm (kept : Memory.KeptBy R Q) (entry : ∀ a, Chronicle a → R a)
    (cells : ∀ n j, s.rcu.capture = some n → s.rcu.copy = some j → ∀ c ∈ j.cells n, R c.1)
    (header : ∀ n, s.rcu.capture = some n → ∀ i ≤ 31, R (slotStateOffset n + i)) (h : Q s.xm) : Q s.countWindow.xm := by
  unfold State.countWindow
  split
  · exact h
  split
  · unfold State.closeWindow
    refine State.completeRecord_xm kept ?_ ?_ (State.closeEntry_xm kept entry h)
    · simpa using cells
    · simpa using header
  · exact h

/-- A hand-off writes its snapshot, and what a window's close writes (R133, R151). -/
theorem State.handOff_xm (kept : Memory.KeptBy R Q) (entry : ∀ a, Chronicle a → R a)
    (place : ∀ n, s.rcu.capture = some n → ∀ i < 16, R (placeOffset n (s.rcu.preCount + s.rcu.postCount) + i))
    (cells : ∀ n j, s.rcu.capture = some n → s.rcu.copy = some j → ∀ c ∈ j.cells n, R c.1)
    (header : ∀ n, s.rcu.capture = some n → ∀ i ≤ 31, R (slotStateOffset n + i)) (h : Q s.xm) : Q s.handOff.xm := by
  unfold State.handOff
  refine State.countWindow_xm kept entry ?_ ?_ (State.appendSnapshot_xm kept _ place (fun n hn => header n hn 14 (by norm_num)) h)
  · rw [State.appendSnapshot_rcu]
    exact cells
  · rw [State.appendSnapshot_rcu]
    exact header

theorem State.completePublication_xm (kept : Memory.KeptBy R Q) (cells : ∀ p, s.pt.inFlight = some p → ∀ c ∈ p.cells, R c.1) (h : Q s.xm) :
    Q s.completePublication.xm := by
  unfold State.completePublication
  split
  · exact h
  case h_2 p flight =>
    have stands : Q (s.xm.writeAll p.cells) := kept.writeAll (cells p flight) h
    dsimp only
    split <;> exact stands

theorem State.completeReport_xm (kept : Memory.KeptBy R Q) (block : ∀ ws, s.rn.inFlight = some ws → ∀ i < ws.length, R (0x0010 + i))
    (h : Q s.xm) : Q s.completeReport.xm := by
  unfold State.completeReport
  split
  · exact h
  case h_2 ws flight =>
    have stands : Q (s.xm.writeBlock 0x0010 ws) := kept _ _ _ (block ws flight) h
    dsimp only
    split <;> exact stands

theorem State.writeResult_xm (kept : Memory.KeptBy R Q) {off : Nat} (word : 0x0400 ≤ off + 1 → off + 1 ≤ 0x0FFF → R (off + 1)) (h : Q s.xm)
    (r : OrderResult) : Q (s.writeResult off r).xm := by
  unfold State.writeResult
  split
  case isTrue region => exact kept.write (word region.1 region.2) _ h
  case isFalse => exact h

theorem State.finishRecord_xm (kept : Memory.KeptBy R Q) {off : Nat} (word : 0x0400 ≤ off + 1 → off + 1 ≤ 0x0FFF → R (off + 1)) (h : Q s.xm)
    (hd : Header) (r : OrderResult) : Q (s.finishRecord off hd r).xm := by
  have written := State.writeResult_xm kept word h r
  unfold State.finishRecord
  dsimp only
  split
  · exact written
  split
  · exact written
  · exact written

theorem State.takeUpFault_xm (kept : Memory.KeptBy R Q)
    (word : s.cw.walking = true → 0x0400 ≤ s.cw.nextOffset + 1 → s.cw.nextOffset + 1 ≤ 0x0FFF → R (s.cw.nextOffset + 1)) (h : Q s.xm) :
    Q s.takeUpFault.xm := by
  unfold State.takeUpFault
  split
  case h_1 walking _ => exact State.writeResult_xm (s := s.countRecord) kept (word walking) h _
  case h_2 => exact h

theorem State.writeMemory_xm (kept : Memory.KeptBy R Q) {a : Nat} {w : Word} (word : hostWritable a = true → R a)
    (release : isSlotStateWord a = true → w = 3 → R a) (h : Q s.xm) : Q (s.writeMemory a w).xm := by
  unfold State.writeMemory
  split
  · exact h
  split
  case isTrue takes =>
    refine kept.write ?_ w h
    rcases Bool.or_eq_true_iff.1 takes with host | slot
    · exact word host
    · rw [Bool.and_eq_true, beq_iff_eq] at slot
      exact release slot.1 slot.2
  · exact h

theorem emptyFilling_of (kept : Memory.KeptBy R Q) (slots : ∀ n, R (slotStateOffset n)) (capture : Option (Fin 4)) {m : Memory} (h : Q m) :
    Q (emptyFilling capture m) := by
  unfold emptyFilling
  refine foldl_keeps (fun u n hu => ?_) _ h
  split
  · exact kept.write (slots n) _ hu
  · exact hu

/-- A warm reset writes EMPTY into state words, behind what the operations it cuts had written (R155, R162). -/
theorem State.warmReset_xm (kept : Memory.KeptBy R Q) (slots : ∀ n, R (slotStateOffset n)) (cut : Q s.cutMemory) (h : Q s.xm)
    (e : Option Nat) : Q (s.warmReset e).xm := by
  unfold State.warmReset
  split
  · exact h
  · exact emptyFilling_of kept slots _ cut

end

/-! ### The canonical form -/

/-- Every command keeps exchange memory canonical. -/
theorem wf_exec {c : Instr} {s t : State} (h : s.xm.wf) (hc : exec c s = .next t) : t.xm.wf := by
  have same : ∀ u : State, u.xm = s.xm → u.xm.wf := fun u e => e ▸ h
  have report : ∀ (u : State) c, u.xm.wf → (u.report c).xm.wf := fun u c hu =>
    State.report_xm Memory.keptBy_wf (fun _ _ => trivial) (fun _ _ _ => trivial) hu c
  have reset : ∀ u : State, u.xm.wf → ∀ e, (u.warmReset e).xm.wf := fun u hu e =>
    State.warmReset_xm Memory.keptBy_wf (fun _ => trivial) (State.wf_memoryAt hu _) hu e
  apply exec_cases (P := fun u => u.xm.wf) hc
  case same => exact h
  case powerOn => exact Memory.wf_nil
  case pinLow => exact State.pinLow_of (P := fun u => u.xm.wf) h h fun u hu => reset u hu none
  case control =>
    exact State.writeControl_of (P := fun u => u.xm.wf) h report (reset s h) fun _ hu => by simpa using hu
  case memory => exact fun a w => State.writeMemory_xm Memory.keptBy_wf (fun _ => trivial) (fun _ _ => trivial) h
  case formatFault => exact State.takeUpFault_xm Memory.keptBy_wf (fun _ _ _ => trivial) h
  case orders =>
    refine fun k => takeUp_keeps (P := fun u => u.xm.wf) h ?_ fun u off hd r hu =>
      State.finishRecord_xm Memory.keptBy_wf (fun _ _ => trivial) hu hd r
    cases k
    case testTrip =>
      show (ownTestTrip s.recordOrder s.countRecord).1.xm.wf
      unfold ownTestTrip
      split
      · exact report s.countRecord .test h
      · exact h
    all_goals exact same _ (by simp [OrderKind.owner])
  case truExpires =>
    refine State.truExpires_of (P := fun u => u.xm.wf) h report fun due => ?_
    have handed : (s.truDue due).counted.handOff.xm.wf :=
      State.handOff_xm Memory.keptBy_wf (fun _ _ => trivial) (fun _ _ _ _ => trivial) (fun _ _ _ _ _ _ => trivial)
        (fun _ _ _ _ => trivial) (same _ (by simp [State.counted, State.truDue]))
    simpa [State.computed] using handed
  case breakAway => exact State.breakAwayExpires_of (P := fun u => u.xm.wf) h report fun _ => h
  case linkFrame =>
    exact fun ch => State.linkFrame_of (P := fun u => u.xm.wf) h report h h fun _ => same _ (by simp [State.regulated])
  case breakDetected => exact fun ch => State.breakDetected_of (P := fun u => u.xm.wf) h report h
  case linkLoss => exact fun ch => State.linkLossExpires_of (P := fun u => u.xm.wf) h report (fun _ => h) fun _ => h
  case copy => exact State.completeCopy_xm Memory.keptBy_wf (fun _ _ _ _ _ _ => trivial) (fun _ _ => trivial) h
  case publication => exact State.completePublication_xm Memory.keptBy_wf (fun _ _ _ _ => trivial) h
  case report => exact State.completeReport_xm Memory.keptBy_wf (fun _ _ _ _ => trivial) h
  case evaluation => exact State.evaluationEnds_of (P := fun u => u.xm.wf) h report fun u v m hu => m.xm ▸ hu
  case filter => exact State.externalExpires_of (P := fun u => u.xm.wf) h report fun _ => h
  all_goals intros; exact same _ (by simp)

/-- Settles O4. -/
theorem stepKeepsMemoryCanonical : Obligations.StepKeepsMemoryCanonical := by
  intro s t h hs
  exact step_keeps (P := fun u => u.xm.wf) (fun s rest h => h) (fun s h => h) (fun c s t h hc => wf_exec h hc) h hs

/-! ### The state words of the slots (R146 to R155) -/

/-- No slot reads FILLING but that of the capture in progress. -/
def State.SlotWords (s : State) : Prop := ∀ n, s.slotWord n = 1 → s.rcu.capture = some n

theorem State.slotInv_iff (s : State) : s.SlotInv ↔ s.TripInv ∧ s.LayoutInv ∧ s.SlotWords := Iff.rfl

theorem slotStateOffset_inside (n : Fin 4) : slotStateOffset n < Config.xmWords := by
  unfold slotStateOffset Config.xmWords
  omega

/-- Writes that keep clear of the state words, and keep the capture, keep what the state words say. -/
theorem State.SlotWords.of_words {s t : State} (h : s.SlotWords) (words : ∀ n, t.slotWord n = s.slotWord n)
    (capture : t.rcu.capture = s.rcu.capture) : t.SlotWords := fun n filling => by
  rw [capture]
  exact h n ((words n).symm.trans filling)

theorem State.SlotWords.of_eq {s t : State} (h : s.SlotWords) (xm : t.xm = s.xm) (rcu : t.rcu = s.rcu) : t.SlotWords :=
  h.of_words (fun n => by unfold State.slotWord; rw [xm]) (by rw [rcu])

theorem chronicle_ne_slot {a : Nat} (h : Chronicle a) (n : Fin 4) : a ≠ slotStateOffset n := by
  obtain ⟨-, high⟩ := h
  unfold slotStateOffset
  omega

/-- While the drive is not TRIPPED no capture is in progress. -/
theorem State.TripInv.capture_none {s : State} (h : s.TripInv) (drive : s.rc.drive ≠ .tripped) : s.rcu.capture = none := by
  obtain ⟨-, -, -, -, -, -, window, -, -, -, -, capture, -⟩ := h
  by_contra filling
  exact drive (window _ (capture (Option.isSome_iff_ne_none.2 filling))).2.1

/-- The offsets of a slot behind its state word. -/
def InsideSlot (n : Fin 4) (a : Nat) : Prop := slotStateOffset n < a ∧ a < slotStateOffset n + 0x800

theorem InsideSlot.ne {k : Fin 4} {a : Nat} (h : InsideSlot k a) (n : Fin 4) : a ≠ slotStateOffset n := by
  obtain ⟨low, high⟩ := h
  unfold slotStateOffset at *
  omega

theorem insideSlot_header (n : Fin 4) {i : Nat} (pos : 0 < i) (small : i < 0x800) : InsideSlot n (slotStateOffset n + i) :=
  ⟨by omega, by omega⟩

/-- The places of a slot, 0 to 119, lie in it. -/
theorem insideSlot_place (n : Fin 4) {p i : Nat} (hp : p < 120) (hi : i < 16) : InsideSlot n (placeOffset n p + i) := by
  unfold placeOffset
  exact ⟨by omega, by omega⟩

/-- The cells of a copy lie in its slot. -/
theorem CopyJob.cells_inside {j : CopyJob} {pre : Nat} (sized : j.header.length = 127 ∧ j.pre.length ≤ pre) (small : pre ≤ 96) (n : Fin 4) :
    ∀ c ∈ j.cells n, InsideSlot n c.1 := by
  intro c hc
  have words : ∀ l : List Snapshot, (l.flatMap Snapshot.words).length = 16 * l.length := fun l => by
    induction l with
    | nil => rfl
    | cons x l ih =>
      have : x.words.length = 16 := rfl
      rw [List.flatMap_cons, List.length_append, ih, this, List.length_cons]
      omega
  rw [CopyJob.cells_eq] at hc
  obtain ⟨header, bound⟩ := sized
  rcases List.mem_append.1 hc with head | place
  · obtain ⟨low, high⟩ := mem_cellRun head
    exact ⟨by omega, by omega⟩
  · obtain ⟨low, high⟩ := mem_cellRun place
    rw [words] at high
    unfold placeOffset at low high
    exact ⟨by omega, by omega⟩

theorem State.RcuSized.cells {s : State} (h : s.rcu.Sized) (n : Fin 4) (j : CopyJob) (copy : s.rcu.copy = some j) :
    ∀ c ∈ j.cells n, InsideSlot n c.1 := by
  obtain ⟨sized, small⟩ := h
  exact CopyJob.cells_inside (sized j copy) small n

/-- A first cause writes FILLING into the slot that it captures. -/
theorem State.SlotWords.report {s : State} (h : s.SlotWords) (trip : s.TripInv) (c : Cause) : (s.report c).SlotWords := by
  by_cases tripped : s.rc.drive = .tripped
  · rw [show s.report c = s.furtherCause c from if_pos tripped]
    exact h.of_eq (by simp) (by simp)
  have idle := trip.capture_none tripped
  intro n filling
  obtain ⟨j, rcu⟩ := s.firstCause_rcu c
  by_cases chosen : s.chooseSlot = some n
  · rw [show s.report c = s.firstCause c from if_neg tripped, rcu, chosen]
  · have old : (s.report c).xm.read (slotStateOffset n) = s.slotWord n :=
      State.report_xm (Memory.keptBy_read (slotStateOffset_inside n) (s.slotWord n)) (fun a ha => chronicle_ne_slot ha n)
        (fun _ k free e => chosen (by rw [free, slotStateOffset_inj e])) rfl c
    have : s.rcu.capture = some n := h n (old.symm.trans filling)
    rw [idle] at this
    cases this

/-- The completion of a copy leaves the state words. -/
theorem State.completeCopy_slotWord {s : State} (sized : s.rcu.Sized) (n : Fin 4) : s.completeCopy.slotWord n = s.slotWord n :=
  State.completeCopy_xm (Memory.keptBy_read (slotStateOffset_inside n) (s.slotWord n))
    (fun k j _ copy c hc => (State.RcuSized.cells sized k j copy c hc).ne n)
    (fun k _ => (insideSlot_header k (by norm_num) (by norm_num)).ne n) rfl

/-- The place that a hand-off fills in the slot that is captured: at most the 120th (R149, R151). -/
theorem State.place_inside {s : State} (trip : s.TripInv) (sized : s.rcu.Sized) {k : Fin 4} (capture : s.rcu.capture = some k) {i : Nat}
    (hi : i < 16) : InsideSlot k (placeOffset k (s.rcu.preCount + s.rcu.postCount) + i) := by
  obtain ⟨-, -, -, -, -, -, window, -, -, -, -, step, -⟩ := trip
  obtain ⟨-, pre⟩ := sized
  obtain ⟨post, -⟩ := window _ (step (by rw [capture]; rfl))
  exact insideSlot_place k (by omega) hi

/-- A record completed leaves READY in its slot's state word, and the others (R152). -/
theorem State.completeRecord_slotWord {s : State} (sized : s.rcu.Sized) (n : Fin 4) :
    s.completeRecord.slotWord n = if s.rcu.capture = some n then 2 else s.slotWord n := by
  by_cases captured : s.rcu.capture = some n
  · rw [if_pos captured]
    unfold State.completeRecord State.slotWord
    rw [captured]
    exact (Memory.read_write _ _ _ _ (slotStateOffset_inside n)).trans (if_pos rfl)
  · rw [if_neg captured]
    refine State.completeRecord_xm (Memory.keptBy_read (slotStateOffset_inside n) (s.slotWord n))
      (fun k j _ copy c hc => (State.RcuSized.cells sized k j copy c hc).ne n) (fun k hk i hi => ?_) rfl
    have other : k ≠ n := fun e => captured (by rw [hk, e])
    by_cases state : i = 0
    · rw [state]
      exact fun e => other (slotStateOffset_inj e)
    · exact (insideSlot_header k (by omega) (by omega)).ne n

/-- A window's count, and its close, keep what the state words say: the capture that a close ends reads READY. -/
theorem State.SlotWords.countWindow {s : State} (h : s.SlotWords) (sized : s.rcu.Sized) : s.countWindow.SlotWords := by
  unfold State.countWindow
  split
  · exact h
  split
  · intro n filling
    have closed : ∀ m, (State.closeEntry { s with tu := { s.tu with window := none } }).slotWord m = s.slotWord m := fun m =>
      State.closeEntry_xm (Memory.keptBy_read (slotStateOffset_inside m) (s.slotWord m)) (fun a ha => chronicle_ne_slot ha m) rfl
    have word := State.completeRecord_slotWord (s := State.closeEntry { s with tu := { s.tu with window := none } })
      (by simpa using sized) n
    rw [show s.closeWindow.slotWord n = _ from word, closed] at filling
    split at filling
    case isTrue => exact absurd filling (by decide)
    case isFalse other =>
      exact absurd (h n filling) (by simpa using other)
  · exact h

theorem State.SlotWords.handOff {s : State} (h : s.SlotWords) (trip : s.TripInv) (sized : s.rcu.Sized) : s.handOff.SlotWords := by
  have appended : ∀ x, (State.appendSnapshot (State.placeSnapshot
      { s with tru := { s.tru with snapNumber := (s.tru.snapNumber + 1) % 65536 } } x) x).SlotWords := by
    intro x
    refine h.of_words (fun n => ?_) (by rw [State.appendSnapshot_rcu]; rfl)
    exact State.appendSnapshot_xm (Memory.keptBy_read (slotStateOffset_inside n) (s.slotWord n)) _
      (fun k hk i hi => (State.place_inside trip sized hk hi).ne n)
      (fun k _ => (insideSlot_header k (by norm_num) (by norm_num)).ne n) rfl
  refine State.SlotWords.countWindow (appended _) ?_
  rw [State.appendSnapshot_rcu]
  exact sized

/-- A warm reset leaves no slot FILLING (R155). -/
theorem State.SlotWords.warmReset {s : State} (h : s.SlotWords) (e : Option Nat) : (s.warmReset e).SlotWords := by
  unfold State.warmReset
  split
  · exact h
  · intro n filling
    have word := (read_emptyFilling s.rcu.capture s.cutMemory (slotStateOffset n) (slotStateOffset_inside n)).2 n rfl
    rw [State.slotWord, word] at filling
    split at filling
    case isTrue => exact absurd filling (by decide)
    case isFalse other => exact absurd filling (not_or.1 other).2

/-- The cells of a publication lie in 0x0200 to 0x030F (R91 to R93). -/
theorem Publication.cells_bounds {p : Publication} (length : p.rev.table.length = 32) :
    ∀ c ∈ p.cells, 0x0200 ≤ c.1 ∧ c.1 ≤ 0x030F := by
  intro c hc
  have summary : p.rev.summaryWords.length = 14 := rfl
  rw [Publication.cells_eq, List.mem_cons] at hc
  rcases hc with rfl | hc
  · exact ⟨by norm_num, by norm_num⟩
  rcases List.mem_append.1 hc with hc | last
  · rcases List.mem_append.1 hc with table | sum
    · obtain ⟨low, high⟩ := mem_cellRun table
      rw [tableWords_length, length] at high
      exact ⟨low, by omega⟩
    · obtain ⟨low, high⟩ := mem_cellRun sum
      rw [summary] at high
      exact ⟨by omega, by omega⟩
  · rw [List.mem_singleton.1 last]
    exact ⟨by norm_num, by norm_num⟩

theorem ne_slot_of_lt {a : Nat} (h : a < 0x1000) (n : Fin 4) : a ≠ slotStateOffset n := by
  unfold slotStateOffset
  omega

/-- The trip unit's invariant with the state words: what a report, and every command, keeps together. -/
def State.Captured (s : State) : Prop := s.TripInv ∧ s.SlotWords

theorem State.Captured.of_eq {s t : State} (h : s.Captured) (rc : t.rc = s.rc) (tu : t.tu = s.tu) (rcu : t.rcu = s.rcu) (xm : t.xm = s.xm) :
    t.Captured :=
  ⟨h.1.of_eq rc tu rcu, h.2.of_eq xm rcu⟩

theorem State.SlotWords.writeMemory {s : State} (h : s.SlotWords) (a : Nat) (w : Word) : (s.writeMemory a w).SlotWords := by
  unfold State.writeMemory
  split
  · exact h
  split
  case isTrue takes =>
    intro n filling
    rw [State.slotWord, Memory.read_write _ _ _ _ (slotStateOffset_inside n)] at filling
    split at filling
    case isTrue here =>
      have foreign : hostWritable a = false := by
        have demand : ¬a ≤ 0x000F := by rw [← here]; unfold slotStateOffset; omega
        have region : ¬a ≤ 0x0FFF := by rw [← here]; unfold slotStateOffset; omega
        simp [hostWritable, demand, region]
      rw [foreign, filling] at takes
      simp at takes
    case isFalse => exact h n filling
  · exact h

theorem State.Captured.takeUp {s : State} (h : s.Captured) (k : OrderKind) : (Machine.takeUp k k.owner s).Captured := by
  obtain ⟨trip, words⟩ := h
  refine ⟨trip.takeUp k, takeUp_keeps words ?_ fun u off hd r hu => hu.of_words (fun n => ?_) (by simp)⟩
  · cases k
    case testTrip =>
      show (ownTestTrip s.recordOrder s.countRecord).1.SlotWords
      unfold ownTestTrip
      split
      · exact State.SlotWords.report (s := s.countRecord) words (trip.of_eq rfl rfl rfl) .test
      · exact words
    all_goals exact words.of_eq (by simp [OrderKind.owner]) (by simp [OrderKind.owner])
  · exact State.finishRecord_xm (Memory.keptBy_read (slotStateOffset_inside n) (u.slotWord n))
      (fun _ high => ne_slot_of_lt (by omega) n) rfl hd r

/-- Every command keeps the state words. -/
theorem State.Captured.exec {c : Instr} {s t : State} (layout : s.LayoutInv) (h : s.Captured) (hc : exec c s = .next t) : t.Captured := by
  obtain ⟨trip, words⟩ := id h
  obtain ⟨pt, rn, rcu, cw⟩ := s.layoutInv_iff.1 layout
  have kept : ∀ u : State, u.rc = s.rc → u.tu = s.tu → u.rcu = s.rcu → u.xm = s.xm → u.Captured := fun _ => h.of_eq
  have moved : ∀ u v : State, WatchMoves u v → u.Captured → v.Captured := fun u v m hu => hu.of_eq m.rc m.tu m.rcu m.xm
  have report : ∀ (u : State) c, u.Captured → (u.report c).Captured := fun u c hu => ⟨hu.1.report c, hu.2.report hu.1 c⟩
  have reset : ∀ u : State, u.Captured → ∀ e, (u.warmReset e).Captured := fun u hu e => ⟨hu.1.warmReset e, hu.2.warmReset e⟩
  apply exec_cases (P := State.Captured) hc
  case same => exact h
  case powerOn => exact ⟨.of_reset rfl rfl rfl Nat.ofNat_pos rfl, fun n filling => absurd (show (0 : Word) = 1 from filling) (by decide)⟩
  case pinLow => exact State.pinLow_of h (kept _ rfl rfl rfl rfl) fun u hu => reset u hu none
  case control =>
    exact State.writeControl_of h report (reset s h) fun _ hu => hu.of_eq (by simp) (by simp) (by simp) (by simp)
  case memory => exact fun a w => ⟨trip.of_eq (by simp) (by simp) (by simp), words.writeMemory a w⟩
  case formatFault =>
    refine ⟨trip.of_eq (by simp) (by simp) (by simp), words.of_words (fun n => ?_) (by simp)⟩
    exact State.takeUpFault_xm (Memory.keptBy_read (slotStateOffset_inside n) (s.slotWord n))
      (fun _ _ high => ne_slot_of_lt (by omega) n) rfl
  case orders => exact h.takeUp
  case truExpires =>
    refine State.truExpires_of h report fun due => ?_
    have due' : (s.truDue due).Captured := h.of_eq rfl rfl rfl rfl
    have counted : (s.truDue due).counted.TripInv := due'.1.of_same (by simp [State.counted])
      (by simp [State.counted, TripUnit.SameTrip]) (by simp [State.counted, RecordCapture.SameCapture])
    have words' : (s.truDue due).counted.SlotWords := due'.2.of_eq (by simp [State.counted]) (by simp [State.counted])
    have handed := words'.handOff counted (by simpa [State.counted, State.truDue] using rcu)
    exact ⟨due'.1.computed, handed.of_eq (by simp [State.computed]) (by simp [State.computed])⟩
  case breakAway =>
    exact State.breakAwayExpires_of h report fun _ => ⟨trip.of_same Iff.rfl rfl ⟨rfl, rfl, rfl⟩, words⟩
  case stopHold => exact ⟨trip.stopHoldExpires, words.of_eq (by simp) (by simp)⟩
  case speedWindow => exact ⟨trip.speedWindow, words.of_eq (by simp) (by simp)⟩
  case linkFrame =>
    exact fun ch => State.linkFrame_of h report (kept _ rfl rfl rfl rfl) (kept _ rfl rfl rfl rfl) fun _ =>
      kept _ (by simp [State.regulated]) (by simp [State.regulated]) (by simp [State.regulated]) (by simp [State.regulated])
  case breakDetected => exact fun ch => State.breakDetected_of h report (kept _ rfl rfl rfl rfl)
  case linkLoss =>
    exact fun ch => State.linkLossExpires_of h report (fun _ => kept _ rfl rfl rfl rfl) fun _ => kept _ rfl rfl rfl rfl
  case evaluation => exact State.evaluationEnds_of h report moved
  case sampleFrame => exact fun f => moved s _ (s.sampleFrame_moves f) h
  case portLoss => exact moved s _ s.portLossExpires_moves h
  case copy =>
    refine ⟨trip.completeCopy, words.of_words (State.completeCopy_slotWord rcu) ?_⟩
    rw [State.completeCopy_rcu]
  case publication =>
    refine ⟨trip.of_eq (by simp) (by simp) (by simp), words.of_words (fun n => ?_) (by simp)⟩
    refine State.completePublication_xm (Memory.keptBy_read (slotStateOffset_inside n) (s.slotWord n)) (fun p flight c hc => ?_) rfl
    obtain ⟨-, high⟩ := Publication.cells_bounds (pt.2.1 p flight) c hc
    exact ne_slot_of_lt (by omega) n
  case report =>
    refine ⟨trip.of_eq (by simp) (by simp) (by simp), words.of_words (fun n => ?_) (by simp)⟩
    refine State.completeReport_xm (Memory.keptBy_read (slotStateOffset_inside n) (s.slotWord n)) (fun ws flight i hi => ?_) rfl
    rw [rn.1 ws flight] at hi
    exact ne_slot_of_lt (by omega) n
  case external =>
    intro l
    unfold State.externalChanges
    split
    · exact h
    · exact ⟨trip.of_same Iff.rfl rfl ⟨rfl, rfl, rfl⟩, words⟩
  case filter =>
    exact State.externalExpires_of h report fun _ => ⟨trip.of_same Iff.rfl rfl ⟨rfl, rfl, rfl⟩, words⟩
  case endInit =>
    unfold State.endInit
    split
    · exact h
    · exact ⟨trip.of_same Iff.rfl rfl ⟨rfl, rfl, rfl⟩, words⟩
  all_goals intros; exact kept _ (by simp) (by simp) (by simp) (by simp)

/-! ### The history ring (R144) -/

theorem State.RingInv.of_same {s t : State} (h : s.RingInv) (number : t.tru.snapNumber = s.tru.snapNumber)
    (fill : t.rcu.fillCount = s.rcu.fillCount) (ring : t.rcu.ring = s.rcu.ring) : t.RingInv := by
  unfold State.RingInv
  rw [number, fill, ring]
  exact h

theorem State.RingInv.of_eq {s t : State} (h : s.RingInv) (tru : t.tru = s.tru) (rcu : t.rcu = s.rcu) : t.RingInv :=
  h.of_same (by rw [tru]) (by rw [rcu]) (by rw [rcu])

theorem State.RingInv.of_reset {t : State} (tru : t.tru = {}) (rcu : t.rcu = {}) : t.RingInv := by
  unfold State.RingInv
  rw [tru, rcu]
  exact ⟨by norm_num, by norm_num, fun i _ => rfl⟩

theorem State.RingInv.warmReset {s : State} (h : s.RingInv) (e : Option Nat) : (s.warmReset e).RingInv := by
  unfold State.warmReset
  split
  · exact h
  · exact .of_reset rfl rfl

theorem State.RingInv.report {s : State} (h : s.RingInv) (c : Cause) : (s.report c).RingInv := by
  unfold State.report
  split
  · exact h.of_eq (by simp) (by simp)
  · obtain ⟨j, e⟩ := s.firstCause_rcu c
    cases slot : s.chooseSlot with
    | none =>
      rw [slot] at e
      exact h.of_same (by simp) (by rw [e]) (by rw [e])
    | some n =>
      rw [slot] at e
      exact h.of_same (by simp) (by rw [e]) (by rw [e])

@[simp] theorem State.handOff_snapNumber (s : State) : s.handOff.tru.snapNumber = (s.tru.snapNumber + 1) % 65536 := by
  simp [State.handOff]

theorem TorqueUnit.demand_snapNumber (t : TorqueUnit) (seq : Nat) (td : Int) : (t.demand seq td).snapNumber = t.snapNumber := by
  unfold TorqueUnit.demand TorqueUnit.demandUnchanged
  dsimp only
  (repeat' split) <;> rfl

theorem State.counted_snapNumber (s : State) : s.counted.tru.snapNumber = s.tru.snapNumber := by
  have demand : s.readDemand.computeTorque.evalStopHold.tru.snapNumber = s.tru.snapNumber := by
    simp [State.computeTorque, State.readDemand, TorqueUnit.demand_snapNumber]
  unfold State.counted State.countWatches
  split <;> exact demand

/-- A hand-off puts its snapshot, under the next number, into the place of that number. -/
theorem State.RingInv.computed {s : State} (h : s.RingInv) : s.computed.RingInv := by
  have counted : s.counted.RingInv := h.of_same s.counted_snapNumber (by simp [State.counted]) (by simp [State.counted])
  obtain ⟨ring, fill, -, -⟩ := s.counted.handOff_rcu
  have placed := RingHolds.place counted s.counted.nextSnapshot rfl
  refine State.RingInv.of_same (s := s.counted.handOff) ?_ (by simp [State.computed]) (by simp [State.computed]) (by simp [State.computed])
  unfold State.RingInv
  rw [ring, fill, State.handOff_snapNumber]
  exact placed

/-- Every owner keeps the snapshot number. -/
theorem OrderKind.owner_snapNumber (k : OrderKind) (o : Order) (s : State) : (k.owner o s).1.tru.snapNumber = s.tru.snapNumber := by
  cases k
  case setLimits =>
    show (ownSetLimits o s).1.tru.snapNumber = _
    unfold ownSetLimits
    split
    · rfl
    · exact rangeChecked_keeps (P := fun u => u.tru.snapNumber = s.tru.snapNumber) rfl fun _ =>
        foldl_keeps (P := fun u : State => u.tru.snapNumber = s.tru.snapNumber) (f := setLimitsOn _ _ _) (fun _ _ hu => hu) _ rfl
  case loadEnvelope =>
    show (ownLoadEnvelope o s).1.tru.snapNumber = _
    unfold ownLoadEnvelope
    split
    · rfl
    · dsimp only
      split <;> rfl
  case setShare => exact rangeChecked_keeps (P := fun u => u.tru.snapNumber = s.tru.snapNumber) rfl fun _ => rfl
  case setReference => exact rangeChecked_keeps (P := fun u => u.tru.snapNumber = s.tru.snapNumber) rfl fun _ => rfl
  case testTrip =>
    show (ownTestTrip o s).1.tru.snapNumber = _
    unfold ownTestTrip
    split
    · unfold State.report
      split <;> simp
    · rfl
  case transferCounts =>
    show s.transfer.requestReport.tru.snapNumber = _
    simp [State.transfer, State.zeroLiveCounts]
  all_goals simp [OrderKind.owner]

/-- Every command keeps the history ring. -/
theorem State.RingInv.exec {c : Instr} {s t : State} (h : s.RingInv) (hc : exec c s = .next t) : t.RingInv := by
  have kept : ∀ u : State, u.tru = s.tru → u.rcu = s.rcu → u.RingInv := fun _ => h.of_eq
  have moved : ∀ u v : State, WatchMoves u v → u.RingInv → v.RingInv := fun u v m hu => hu.of_eq m.tru m.rcu
  have report : ∀ (u : State) c, u.RingInv → (u.report c).RingInv := fun u c hu => hu.report c
  apply exec_cases (P := State.RingInv) hc
  case same => exact h
  case powerOn => exact .of_reset rfl rfl
  case pinLow => exact State.pinLow_of h h fun u hu => hu.warmReset none
  case control => exact State.writeControl_of h report h.warmReset fun _ hu => hu.of_eq (by simp) (by simp)
  case orders =>
    refine fun k => takeUp_keeps h ?_ fun u off hd r hu => hu.of_eq (by simp) (by simp)
    cases k
    case testTrip =>
      show (ownTestTrip s.recordOrder s.countRecord).1.RingInv
      unfold ownTestTrip
      split
      · exact report s.countRecord .test h
      · exact h
    all_goals exact h.of_same (OrderKind.owner_snapNumber _ _ _) (by simp [OrderKind.owner]) (by simp [OrderKind.owner])
  case truExpires => exact State.truExpires_of h report fun due => State.RingInv.computed (s := s.truDue due) h
  case breakAway => exact State.breakAwayExpires_of h report fun _ => h
  case stopHold =>
    unfold State.stopHoldExpires
    split
    · exact h
    · dsimp only
      split <;> exact h
  case linkFrame =>
    exact fun ch => State.linkFrame_of h report h h fun _ => kept _ (by simp [State.regulated]) (by simp [State.regulated])
  case breakDetected => exact fun ch => State.breakDetected_of h report h
  case linkLoss => exact fun ch => State.linkLossExpires_of h report (fun _ => h) fun _ => h
  case copy => exact h.of_same (by simp) (by rw [State.completeCopy_rcu]) (by rw [State.completeCopy_rcu])
  case evaluation => exact State.evaluationEnds_of h report moved
  case filter => exact State.externalExpires_of h report fun _ => h
  case reportTimer => exact State.reportExpires_of h (fun _ => h) (fun _ hu => hu) fun u hu => hu.of_eq (by simp) (by simp)
  case endInit =>
    unfold State.endInit
    split <;> exact h
  all_goals intros; exact kept _ (by simp) (by simp)

/-- Settles O12. -/
theorem stepKeepsSlots : Obligations.StepKeepsSlots := by
  constructor
  · intro s t h hs
    refine step_keeps (P := State.SlotInv) (fun s rest h => h) (fun s h => h) (fun c s t h hc => ?_) h hs
    obtain ⟨trip, layout, words⟩ := h
    obtain ⟨trip', words'⟩ := State.Captured.exec layout ⟨trip, words⟩ hc
    exact ⟨trip', layout.exec hc, words'⟩
  · intro s t h hs
    exact step_keeps (P := State.RingInv) (fun s rest h => h) (fun s h => h) (fun c s t h hc => h.exec hc) h hs

end Sys2Proof.Machine

/-! The step, the reset values, INIT kept quiet, and POWER_ON with the end of INIT (O1, O2, O3, O13, O16). -/

namespace Sys2Proof.Machine

/-- Settles O1. -/
theorem stepRunsTheFrontCommand : Obligations.StepRunsTheFrontCommand := by
  intro c rest s front
  unfold step
  rw [front]

/-! ### The state at reset -/

/-- A register reads 0 throughout INIT (R161, R162). -/
theorem State.hostRead_of_init {s : State} (init : s.startUp ≠ .ready) {address : Addr} (register : Config.xmWords ≤ address.toNat) :
    s.hostRead address = 0 := by
  unfold State.hostRead
  rw [if_neg (by omega), if_pos init]

/-- Every word of the window reads 0 in the INIT of power-on (R161). -/
theorem State.hostRead_of_powerOn {s : State} (init : s.startUp = .initPowerOn) (address : Addr) : s.hostRead address = 0 := by
  by_cases memory : address.toNat < Config.xmWords
  · unfold State.hostRead
    rw [if_pos memory, if_pos init]
  · exact s.hostRead_of_init (by simp [init]) (by omega)

/-- Settles O2: each block stands at its defaults. -/
theorem resetHoldsTheManualsValues : Obligations.ResetHoldsTheManualsValues := by
  refine ⟨rfl, rfl, fun _ => rfl, fun a => State.hostRead_of_powerOn rfl a, rfl, ?runControl, ?torque, ?regulators, ?links, rfl,
    ?position, ?watch, ?trips, ?records, ?reports, rfl⟩
  case regulators => exact fun ch => by cases ch <;> rfl
  case links => exact fun ch => by cases ch <;> rfl
  case watch =>
    refine ⟨rfl, rfl, rfl, rfl, rfl, rfl, rfl, rfl, rfl, rfl, rfl, rfl, rfl, rfl, rfl, rfl, rfl, rfl, rfl, rfl, rfl, rfl, ?_⟩
    decide
  case reports => decide
  all_goals repeat' constructor

/-! ### INIT is quiet (R161, R162, R183, R190) -/

theorem State.intPin_of_init {s : State} (init : s.startUp ≠ .ready) : s.intPin = true := by
  simp [State.intPin, State.interrupt, init]

/-- Every block at its reset values is quiet. -/
theorem State.InitInv.of_reset {t : State} (rc : t.rc = {}) (tru : t.tru = {}) (pt : t.pt.timer = none ∧ t.pt.inFlight = none)
    (ext : t.tu.extTimer = none) (link : t.link = ⟨{}, {}⟩) (vw : t.vw = {}) (rcu : t.rcu = {}) (rn : t.rn = {}) (cw : t.cw = {}) :
    t.InitInv := by
  intro init
  have idle : ∀ ch, (t.link.get ch).synced = false ∧ (t.link.get ch).lossTimer = none ∧ (t.link.get ch).sending = none := by
    rw [link]
    exact fun ch => by cases ch <;> exact ⟨rfl, rfl, rfl⟩
  simp [State.permitPin, rc, tru, pt, ext, idle, vw, rcu, rn, cw, t.intPin_of_init init]

theorem State.InitInv.warmReset {s : State} (h : s.InitInv) (e : Option Nat) : (s.warmReset e).InitInv := by
  unfold State.warmReset
  split
  · exact h
  · exact .of_reset rfl rfl ⟨rfl, rfl⟩ rfl rfl rfl rfl rfl rfl

/-- Outside INIT the invariant says nothing. -/
theorem State.InitInv.of_ready {s : State} (ready : s.startUp = .ready) : s.InitInv := fun init => absurd ready init

/-- A step that leaves INIT's blocks as they are keeps it quiet. -/
theorem State.InitInv.of_eq {s t : State} (h : s.InitInv) (startUp : t.startUp = s.startUp) (rc : t.rc = s.rc) (tru : t.tru = s.tru)
    (pt : t.pt = s.pt) (ext : t.startUp ≠ .ready → t.tu.extTimer = s.tu.extTimer) (vw : t.vw = s.vw) (rcu : t.rcu = s.rcu)
    (rn : t.rn = s.rn) (cw : t.cw = s.cw)
    (link : ∀ ch, (t.link.get ch).synced = (s.link.get ch).synced ∧ (t.link.get ch).lossTimer = (s.link.get ch).lossTimer ∧
      (t.link.get ch).sending = (s.link.get ch).sending) : t.InitInv := by
  intro init
  have idle := h (startUp ▸ init)
  obtain ⟨drive, permit, breakAway, stopHold, truTimer, ptTimer, rnTimer, extTimer, links, synced, lossTimer, evaluation, publication,
    report, capture, walking, notice, mask, -, -⟩ := idle
  refine ⟨?_, ?_, ?_, ?_, ?_, ?_, ?_, ?_, fun ch => ?_, ?_, ?_, ?_, ?_, ?_, ?_, ?_, ?_, ?_, ?_, t.intPin_of_init init⟩
  case refine_9 =>
    obtain ⟨synced', loss', sending'⟩ := link ch
    rw [synced', loss', sending']
    exact links ch
  all_goals simpa [State.permitPin, rc, tru, pt, ext init, vw, rcu, rn, cw]

/-- Outside INIT a command leaves the part outside it, or resets it. -/
theorem State.InitInv.exec_ready {c : Instr} {s t : State} (ready : s.startUp = .ready) (hc : Machine.exec c s = .next t) : t.InitInv := by
  have h : s.InitInv := .of_ready ready
  have kept : ∀ u : State, u.startUp = s.startUp → u.InitInv := fun u e => .of_ready (e.trans ready)
  apply exec_cases (P := State.InitInv) hc
  case same => exact h
  case powerOn => exact .of_reset rfl rfl ⟨rfl, rfl⟩ rfl rfl rfl rfl rfl rfl
  case pinLow => exact State.pinLow_of h h fun _ hu => hu.warmReset none
  case control =>
    intro w
    unfold State.writeControl
    rw [if_neg (by simp [ready])]
    split
    · exact h.warmReset _
    · refine kept _ ?_
      split
      · simp
      · split <;> simp
  case pinHigh =>
    unfold State.pinHigh
    split
    case isTrue => exact kept _ (by simp [ready])
    case isFalse => exact h
  case endInit =>
    unfold State.endInit
    rw [if_pos (.inl ready)]
    exact h
  case orders =>
    exact fun k => kept _ (takeUp_keeps (P := fun u => u.startUp = s.startUp) rfl (by cases k <;> simp [OrderKind.owner])
      fun u off hd r hu => by simpa using hu)
  all_goals intros; exact kept _ (by simp)

/-- During INIT a command leaves the part as it is, or moves a pin, writes exchange memory, or clears a held break. -/
theorem State.InitInv.exec_init {c : Instr} {s t : State} (h : s.InitInv) (init : s.startUp ≠ .ready)
    (hc : Machine.exec c s = .next t) : t.InitInv := by
  obtain ⟨drive, permit, breakAway, stopHold, truTimer, ptTimer, rnTimer, extTimer, links, synced, lossTimer, evaluation, publication,
    report, capture, walking, notice, mask, -, -⟩ := h init
  have kept : ∀ u : State, u = s → u.InitInv := fun u e => e ▸ h
  apply exec_cases (P := State.InitInv) hc
  case same => exact h
  case powerOn => exact .of_reset rfl rfl ⟨rfl, rfl⟩ rfl rfl rfl rfl rfl rfl
  case pinLow =>
    exact State.pinLow_of h (h.of_eq rfl rfl rfl rfl (fun _ => rfl) rfl rfl rfl rfl fun _ => ⟨rfl, rfl, rfl⟩) fun _ hu => hu.warmReset none
  case pinHigh =>
    have moved : ∀ low e, State.InitInv { s with resetLow := low, initEnd := e } := fun low e =>
      h.of_eq rfl rfl rfl rfl (fun _ => rfl) rfl rfl rfl rfl fun _ => ⟨rfl, rfl, rfl⟩
    unfold State.pinHigh
    split
    · split <;> exact moved _ _
    · exact h
  case endInit =>
    unfold State.endInit
    split
    · exact h
    · exact .of_ready rfl
  case memory =>
    intro a w
    exact h.of_eq (by simp) (by simp) (by simp) (by simp) (fun _ => by simp) (by simp) (by simp) (by simp) (by simp) fun _ => by simp
  case breakCleared =>
    refine fun ch => h.of_eq rfl rfl rfl rfl (fun _ => rfl) rfl rfl rfl rfl fun k => ?_
    cases ch <;> cases k <;> exact ⟨rfl, rfl, rfl⟩
  case external =>
    intro l
    unfold State.externalChanges
    split
    · exact h
    · exact h.of_eq rfl rfl rfl rfl (fun _ => by simp) rfl rfl rfl rfl fun _ => ⟨rfl, rfl, rfl⟩
  case orders => exact fun k => kept _ (by simp [takeUp, State.recordKind, walking])
  case chainStart => exact fun w => kept _ (if_pos init)
  case control => exact fun w => kept _ (if_pos init)
  case notice => exact fun w => kept _ (if_pos init)
  case mask => exact fun w => kept _ (if_pos init)
  case formatFault => exact kept _ (by simp [State.takeUpFault, walking])
  case truExpires => exact kept _ (by simp [State.truExpires, truTimer])
  case breakAway => exact kept _ (by simp [State.breakAwayExpires, breakAway])
  case stopHold => exact kept _ (by simp [State.stopHoldExpires, stopHold])
  case speedWindow => exact kept _ (by simp [State.speedWindow, ptTimer])
  case quadrature => exact fun ready => absurd ready init
  case marker => exact fun ready => absurd ready init
  case publication => exact kept _ (by simp [State.completePublication, publication])
  case linkFrame => exact fun ch f => kept _ (if_pos (.inl (links ch).1))
  case copy => exact kept _ (by simp [State.completeCopy, capture])
  case synchronise => exact fun r => kept _ (if_pos init)
  case breakDetected => exact fun ch => kept _ (if_neg (by simp [(links ch).1]))
  case linkLoss => exact fun ch => kept _ (by simp [State.linkLossExpires, links ch])
  case transmit => exact fun ch => kept _ (by simp [State.transmitCompletes, links ch])
  case sampleFrame => exact fun f => kept _ (if_pos (.inl synced))
  case portLoss => exact kept _ (by simp [State.portLossExpires, lossTimer])
  case evaluation => exact kept _ (by simp [State.evaluationEnds, evaluation])
  case filter => exact kept _ (by simp [State.externalExpires, extTimer])
  case reportTimer => exact kept _ (by simp [State.reportExpires, rnTimer])
  case report => exact kept _ (by simp [State.completeReport, report])

/-- Every command keeps INIT quiet. -/
theorem State.InitInv.exec {c : Instr} {s t : State} (h : s.InitInv) (hc : exec c s = .next t) : t.InitInv := by
  by_cases ready : s.startUp = .ready
  case pos => exact State.InitInv.exec_ready ready hc
  case neg => exact h.exec_init ready hc

/-- Settles O13. -/
theorem stepKeepsInitQuiet : Obligations.StepKeepsInitQuiet := by
  intro s t h hs
  exact step_keeps (P := State.InitInv) (fun _ _ h => h) (fun s h => h.of_eq rfl rfl rfl rfl (fun _ => rfl) rfl rfl rfl rfl fun _ => ⟨rfl, rfl, rfl⟩)
    (fun c s t h hc => h.exec hc) h hs

/-! ### Power-on and the end of INIT -/

/-- Settles O3. -/
theorem resetMeetsEveryInvariant : Obligations.ResetMeetsEveryInvariant := by
  have run : State.reset.RunInv := .of_reset rfl rfl rfl
  have trip : State.reset.TripInv := .of_reset rfl rfl rfl Nat.ofNat_pos rfl
  obtain ⟨pt, rcu, rn, cw⟩ := sizes_of_reset 0
  have layout : State.reset.LayoutInv := State.reset.layoutInv_iff.2 ⟨pt, rcu, rn, cw⟩
  have torque : State.reset.TorqueRest := .of_reset rfl rfl
  have blind : State.reset.BlindInv := ⟨nofun, fun _ => rfl⟩
  refine ⟨Memory.wf_nil, run, trip, ⟨run, torque⟩, blind, PositionTracker.ok_reset 0, .of_reset rfl, .of_reset rfl rfl, layout,
    ⟨trip, layout, fun n filling => ?_⟩, .of_reset rfl rfl, .of_reset rfl rfl ⟨rfl, rfl⟩ rfl rfl rfl rfl rfl rfl⟩
  exact absurd (show (0 : Word) = 1 from filling) (by decide)

/-- Settles O16. -/
theorem powerOnAndTheEndOfInit : Obligations.PowerOnAndTheEndOfInit := by
  have ended : ∀ s, exec .initEnd s = .next s.endInit := fun _ => rfl
  refine ⟨fun _ => rfl, fun s ready => ?_, fun s _ low => ?_, fun s init high => ?_⟩
  · rw [ended, State.endInit, if_pos (.inl ready)]
  · rw [ended, State.endInit, if_pos (.inr low)]
  · rw [ended, State.endInit, if_neg (by simp [init, high])]
    cases due : s.initEnd with
    | none => simp [State.reach, due, Config.extripStable]
    | some d => simp [State.reach, due, Config.extripStable]

end Sys2Proof.Machine

/-! Host writes and reads, resets, and the walker's starts and ends (O17 to O21). -/

namespace Sys2Proof.Machine

/-! ### Warm resets (R162) -/

/-- Settles O17. -/
theorem warmResetsLeaveResetValues : Obligations.WarmResetsLeaveResetValues := by
  refine ⟨fun s ready high => ?_, fun s w ready reset => ?_, fun s init low => ?_, fun s init => ?_, fun s due init low running => ?_⟩
  · refine ⟨_, congrArg Host.Outcome.next (if_neg (by simp [high])), ?_⟩
    exact State.warmReset_spec { s with resetLow := true } none ready
  · have began : s.writeControl w = s.warmReset (some (s.now + 100)) := by
      unfold State.writeControl
      rw [if_neg (by simp [ready]), if_pos (by exact reset)]
      rfl
    exact ⟨_, congrArg Host.Outcome.next began, s.warmReset_spec _ ready⟩
  · show Host.Outcome.next s.pinHigh = _
    unfold State.pinHigh
    rw [if_pos low, init]
    rfl
  · show Host.Outcome.next s.pinLow = _
    unfold State.pinLow
    split
    case isTrue low => cases s; simp_all
    case isFalse => exact congrArg Host.Outcome.next (if_pos init)
  · show Host.Outcome.next s.pinHigh = _
    unfold State.pinHigh
    rw [if_pos low, init, running]
    rfl

/-! ### The walker (R166, R171) -/

theorem State.abandonWalk_eq (s : State) :
    s.abandonWalk =
      if s.cw.walking then
        { s with
          cw := { s.cw with walking := false, outcome := .abandoned }
          rn := { s.rn with notice := s.rn.notice ||| 1#10 } }
      else s := by
  unfold State.abandonWalk
  split
  · exact s.endWalk_eq .abandoned
  · rfl

/-- Settles O18. -/
theorem walkerWritesStartAndEndWalks : Obligations.WalkerWritesStartAndEndWalks := by
  have control : ∀ (w : Word) (s : State), s.startUp = .ready → w.getLsbD 2 = false →
      s.writeControl w =
        if w.getLsbD 0 then (s.report .urgentStop).abandonWalk else if w.getLsbD 1 then s.abandonWalk else s := by
    intro w s ready keeps
    unfold State.writeControl
    rw [if_neg (by simp [ready]), if_neg (by simp only [controlReset, keeps, Bool.false_eq_true, not_false_iff])]
    rfl
  refine ⟨fun w s ready => ?_, fun w s ready urgent keeps => ?_, fun w s ready abandon calm keeps => ?_⟩
  · exact congrArg Host.Outcome.next (if_neg (by simp [ready]))
  · refine ⟨s.report .urgentStop, s.report_spec _, ?_⟩
    show Host.Outcome.next (s.writeControl w) = _
    rw [control w s ready keeps, if_pos urgent, State.abandonWalk_eq]
    simp
  · show Host.Outcome.next (s.writeControl w) = _
    rw [control w s ready keeps, if_neg (by simp only [calm, Bool.false_eq_true, not_false_iff]), if_pos abandon, State.abandonWalk_eq]

/-! ### Host writes to memory (R158, R146) -/

/-- A write to a word that is no register is a write to memory. -/
theorem State.busWrite_memory (s : State) {address : Addr} (memory : isRegister address.toNat = false) (v : Word) :
    s.busWrite address v = s.writeMemory address.toNat v := by
  unfold State.busWrite
  repeat rw [if_neg (by rintro rfl; exact absurd memory (by decide))]

/-- A write to CHAIN STATUS, to STATE, or of no mark to CONTROL is no event. -/
theorem State.busWrite_ignored (s : State) {address : Addr} {v : Word}
    (ignored : address.toNat = 0x3FF9 ∨ address.toNat = 0x3FFD ∨ (address.toNat = 0x3FFC ∧ ∀ i < 3, v.getLsbD i = false)) :
    s.busWrite address v = s := by
  have nowhere : ∀ a, hostWritable a = false → isSlotStateWord a = false → s.writeMemory a v = s := by
    intro a host slot
    unfold State.writeMemory
    split
    · rfl
    · exact if_neg (by simp [host, slot])
  rcases ignored with status | state | ⟨control, unmarked⟩
  · obtain rfl : address = 0x3FF9#14 := BitVec.eq_of_toNat_eq status
    exact nowhere 0x3FF9 (by decide) (by decide)
  · obtain rfl : address = 0x3FFD#14 := BitVec.eq_of_toNat_eq state
    exact nowhere 0x3FFD (by decide) (by decide)
  · obtain rfl : address = 0x3FFC#14 := BitVec.eq_of_toNat_eq control
    show s.writeControl v = s
    unfold State.writeControl
    split
    · rfl
    simp only [controlReset, controlUrgent, controlAbandon, unmarked 0 (by omega), unmarked 1 (by omega), unmarked 2 (by omega),
      Bool.false_eq_true, if_false]

/-- What well-formedness says of the writes that REGISTER_WRITE_IGNORED names. -/
theorem registerWriteIgnored_wf {address : Addr} {v : Word} (wf : (Instr.registerWriteIgnored address v).wf = true) :
    address.toNat = 0x3FF9 ∨ address.toNat = 0x3FFD ∨ (address.toNat = 0x3FFC ∧ ∀ i < 3, v.getLsbD i = false) := by
  simp only [Instr.wf, Bool.or_eq_true, beq_iff_eq, Bool.and_eq_true, Bool.not_eq_true', or_assoc, and_assoc] at wf
  rcases wf with rfl | rfl | ⟨rfl, urgent, abandon, reset⟩
  · exact .inl rfl
  · exact .inr (.inl rfl)
  · refine .inr (.inr ⟨rfl, fun i hi => ?_⟩)
    interval_cases i <;> assumption

theorem hostMemoryWrite_wf {address : Addr} {v : Word} (wf : (Instr.hostMemoryWrite address v).wf = true) :
    isRegister address.toNat = false := by
  simpa using (Bool.and_eq_true_iff.1 wf).1

/-- ABANDON_CHAIN ends the walk outside INIT (R165, R171). -/
theorem State.abandonChain_eq {s : State} {w : Word} (wf : (Instr.abandonChain w).wf = true) :
    s.writeControl w = if s.startUp ≠ .ready then s else s.abandonWalk := by
  simp only [Instr.wf, Bool.and_eq_true, Bool.not_eq_true', and_assoc] at wf
  obtain ⟨abandons, calm, keeps⟩ := wf
  unfold State.writeControl
  simp [abandons, calm, keeps]

theorem isSlotStateWord_iff (a : Nat) : isSlotStateWord a = true ↔ ∃ n, a = slotStateOffset n := by
  simp [isSlotStateWord, slotStateOffset, Fin.exists_fin_succ, or_assoc]

/-- A write to memory outside the INIT of power-on stores its word in the host's regions, and RELEASED in a slot state word. -/
theorem State.writeMemory_spec {s : State} (live : s.startUp ≠ .initPowerOn) (a : Nat) (v : Word) :
    s.writeMemory a v = { s with xm := (s.writeMemory a v).xm } ∧
    ∀ b < Config.xmWords, (s.writeMemory a v).xm.read b =
      if b = a ∧ (hostWritable b = true ∨ (∃ n, b = slotStateOffset n) ∧ v = 3) then v else s.xm.read b := by
  unfold State.writeMemory
  rw [if_neg live]
  split
  case isTrue takes =>
    refine ⟨rfl, fun b hb => ?_⟩
    rw [Memory.read_write _ _ _ _ hb]
    refine if_congr ⟨?_, And.left⟩ rfl rfl
    rintro rfl
    simpa [isSlotStateWord_iff] using takes
  case isFalse refuses =>
    refine ⟨rfl, fun b hb => (if_neg ?_).symm⟩
    rintro ⟨rfl, stored⟩
    exact refuses (by simpa [isSlotStateWord_iff] using stored)

/-- Settles O20. -/
theorem hostWritesStoreOnlyTheirWord : Obligations.HostWritesStoreOnlyTheirWord := by
  refine ⟨fun address v s live memory => ?_, fun n v s live => ?_, fun address v s ignored => congrArg Host.Outcome.next (s.busWrite_ignored ignored)⟩
  · obtain ⟨frame, reads⟩ := State.writeMemory_spec live address.toNat v
    refine ⟨_, congrArg Host.Outcome.next (s.busWrite_memory memory v), frame, fun a ha => ?_⟩
    simpa [hostWritable, or_assoc] using reads a ha
  · obtain ⟨frame, reads⟩ := State.writeMemory_spec live (slotStateOffset n) v
    refine ⟨_, rfl, frame, fun a ha => ?_⟩
    rw [reads a ha]
    have beyond : hostWritable (slotStateOffset n) = false := (by decide : ∀ n, hostWritable (slotStateOffset n) = false) n
    by_cases here : a = slotStateOffset n
    · subst here
      by_cases released : v = 3
      · subst released
        simp [beyond]
      · rw [if_neg fun h => ?_, if_neg fun h => released h.2]
        obtain ⟨-, host | stored⟩ := h
        · exact absurd host (by simp [beyond])
        · exact released stored.2
    · simp [here]

/-! ### INIT and the outside (R161, R162) -/

/-- Settles O21. -/
theorem initIgnoresTheOutside : Obligations.InitIgnoresTheOutside := by
  refine ⟨fun s init => ?_, fun s address warm memory => ?_, fun s power => ?_⟩
  · have control : ∀ w, s.writeControl w = s := fun w => if_pos init
    refine ⟨fun address register => s.hostRead_of_init init ?_, by simp [State.interrupt, init], s.intPin_of_init init,
      fun w => congrArg Host.Outcome.next (if_pos init), fun w => congrArg Host.Outcome.next (control w), fun w => congrArg Host.Outcome.next (control w),
      fun w => congrArg Host.Outcome.next (control w), fun w => congrArg Host.Outcome.next (if_pos init), fun w => congrArg Host.Outcome.next (if_pos init),
      fun ch k => congrArg Host.Outcome.next (if_neg fun ready => init ready.1), congrArg Host.Outcome.next (if_neg init), fun r => congrArg Host.Outcome.next (if_pos init)⟩
    simp only [isRegister, Bool.and_eq_true, decide_eq_true_eq] at register
    unfold Config.xmWords
    omega
  · unfold State.hostRead
    rw [if_pos memory, if_neg (by simp [warm])]
  · have ignored : ∀ a v, s.writeMemory a v = s := fun _ _ => if_pos power
    exact ⟨s.hostRead_of_powerOn power, fun _ => State.hostRead_of_powerOn (s := { s with xm := _ }) power,
      fun _ _ _ => State.hostRead_of_powerOn (s := { s with xm := _ }) power,
      fun address v memory => congrArg Host.Outcome.next ((s.busWrite_memory memory v).trans (ignored _ _)), fun _ _ => congrArg Host.Outcome.next (ignored _ _)⟩

/-! ### Notices and the registers (R183, R189, 11.6) -/

/-- Bit i of a value's word. -/
theorem wordN_getLsbD (n : Nat) {i : Nat} (h : i < 16) : (wordN n).getLsbD i = decide (n / 2 ^ i % 2 = 1) := by
  rw [wordN, BitVec.getLsbD_ofNat, Nat.testBit_eq_decide_div_mod_eq]
  simp [h]

theorem wordN_toNat {n : Nat} (h : n < 65536) : (wordN n).toNat = n := by
  rw [wordN, BitVec.toNat_ofNat]
  exact Nat.mod_eq_of_lt h

/-- Bit i of ten marks in a word. -/
theorem setWidth_getLsbD (marks : BitVec 10) {i : Nat} (h : i < 16) :
    (marks.setWidth 16).getLsbD i = (decide (i < 10) && marks.getLsbD i) := by
  rw [BitVec.getLsbD_setWidth]
  by_cases low : i < 10
  · simp [low, h]
  · rw [BitVec.getLsbD_of_ge _ _ (by omega)]
    simp

theorem bit_lt (b : Bool) : bit b < 2 := by cases b <;> decide

theorem decide_bit (b : Bool) : decide (bit b = 1) = b := by cases b <;> rfl

theorem DriveState.code_lt (d : DriveState) : d.code < 8 := by cases d <;> decide

theorem Derate.code_lt (d : Derate) : d.code < 4 := by cases d <;> decide

theorem RxState.code_lt (r : RxState) : r.code < 4 := by cases r <;> decide

theorem WalkOutcome.code_lt (o : WalkOutcome) : o.code < 8 := by cases o <;> decide

/-- The interrupt is asserted while a marked notice is set (R183). -/
theorem State.interrupt_iff {s : State} (ready : s.startUp = .ready) :
    s.interrupt = true ↔ ∃ i < 10, s.rn.notice.getLsbD i = true ∧ s.rn.mask.getLsbD i = true := by
  have some_bit : s.rn.notice &&& s.rn.mask ≠ 0 ↔ ∃ i < 10, (s.rn.notice &&& s.rn.mask).getLsbD i = true := by
    refine ⟨fun h => ?_, fun ⟨i, _, set⟩ zero => by simp [zero] at set⟩
    by_contra none
    refine h (BitVec.eq_of_getLsbD_eq fun i hi => ?_)
    rw [show BitVec.getLsbD (0 : BitVec 10) i = false from BitVec.getLsbD_zero]
    exact Bool.eq_false_iff.2 fun set => none ⟨i, hi, set⟩
  simpa [State.interrupt, ready] using some_bit

/-- CHAIN STATUS spells the walker's fields (11.6). -/
theorem Walker.status_spec {c : Walker} (bounded : c.orderIndex ≤ 65) :
    c.status.getLsbD 0 = c.walking ∧ c.status.toNat / 2 % 8 = c.outcome.code ∧ c.status.getLsbD 4 = c.startRefused ∧
      c.status.toNat / 32 % 8 = 0 ∧ c.status.toNat / 256 = c.orderIndex := by
  have walking := bit_lt c.walking
  have refused := bit_lt c.startRefused
  have outcome := c.outcome.code_lt
  have walks : (bit c.walking + 2 * c.outcome.code + 16 * bit c.startRefused + 256 * c.orderIndex) / 2 ^ 0 % 2 = bit c.walking := by
    omega
  have refuses : (bit c.walking + 2 * c.outcome.code + 16 * bit c.startRefused + 256 * c.orderIndex) / 2 ^ 4 % 2 =
      bit c.startRefused := by omega
  unfold Walker.status
  rw [wordN_getLsbD _ (by decide), wordN_getLsbD _ (by decide), walks, refuses, decide_bit, decide_bit, wordN_toNat (by omega)]
  exact ⟨rfl, by omega, rfl, by omega, by omega⟩

/-- STATE spells the states of the blocks (11.6). -/
theorem State.stateWord_spec (s : State) :
    s.stateWord.getLsbD 0 = true ∧ s.stateWord.toNat / 2 % 8 = s.rc.drive.code ∧
      (s.stateWord.getLsbD 4 = true ↔ s.tu.latched ≠ []) ∧ s.stateWord.toNat / 32 % 4 = s.vw.derate.code ∧
      s.stateWord.toNat / 128 % 4 = s.link.a.rx.code ∧ s.stateWord.toNat / 512 % 4 = s.link.b.rx.code ∧
      s.stateWord.toNat / 2048 % 4 = s.vw.rx.code ∧ (s.stateWord.getLsbD 13 = true ↔ s.pt.tracking = .uncertain) ∧
      s.stateWord.toNat / 16384 = 0 := by
  have latched : bit s.tu.tripLatched = 1 ↔ s.tu.latched ≠ [] := by
    unfold TripUnit.tripLatched
    cases s.tu.latched <;> simp [bit]
  have uncertain : bit (s.pt.tracking == .uncertain) = 1 ↔ s.pt.tracking = .uncertain := by
    cases s.pt.tracking <;> simp [bit]
  have trips := bit_lt s.tu.tripLatched
  have doubts := bit_lt (s.pt.tracking == .uncertain)
  have drive := s.rc.drive.code_lt
  have derate := s.vw.derate.code_lt
  have a := s.link.a.rx.code_lt
  have b := s.link.b.rx.code_lt
  have port := s.vw.rx.code_lt
  rw [← latched, ← uncertain]
  unfold State.stateWord
  rw [wordN_getLsbD _ (by decide), wordN_getLsbD _ (by decide), wordN_getLsbD _ (by decide), wordN_toNat (by omega)]
  simp only [decide_eq_true_eq]
  generalize bit s.tu.tripLatched = l at *
  generalize bit (s.pt.tracking == .uncertain) = u at *
  refine ⟨?_, ?_, ?_, ?_, ?_, ?_, ?_, ?_, ?_⟩ <;> omega

/-- A word that no operation in flight writes reads as it stands, at every progress of those operations. -/
theorem State.memoryAt_still {s : State} {a : Nat} (ha : a < Config.xmWords) (still : ∀ c ∈ s.cellsInFlight, c.1 ≠ a) (p : Progress) :
    (s.memoryAt p).read a = s.xm.read a :=
  (s.read_memoryAt p a ha).resolve_right fun written => still _ written rfl

/-- Settles O19. -/
theorem noticeWritesClearAndMask : Obligations.NoticeWritesClearAndMask := by
  refine ⟨fun w s ready => ?_, fun w s ready => ?_, fun s ready => ⟨State.interrupt_iff ready, ?_⟩, fun s ready bounded => ?_⟩
  · refine ⟨_, congrArg Host.Outcome.next (if_neg (by simp [ready])), fun i hi => ?_, rfl⟩
    show (s.rn.notice &&& ~~~(w.setWidth 10)).getLsbD i = _
    simp [hi]
  · refine ⟨_, congrArg Host.Outcome.next (if_neg (by simp [ready])), fun i hi => ?_, rfl⟩
    show (w.setWidth 10).getLsbD i = _
    simp [hi]
  · rw [← State.interrupt_iff ready, State.intPin, Bool.not_eq_false']
  · have memory : ∀ (address : Addr), address.toNat < Config.xmWords → s.hostRead address = s.xm.read address.toNat := by
      intro address inside
      unfold State.hostRead
      rw [if_pos inside, if_neg (by simp [ready])]
    have later : ∀ (p : Progress) (address : Addr), address.toNat < Config.xmWords →
        s.hostReadAt p address = (s.memoryAt p).read address.toNat := by
      intro p address inside
      unfold State.hostReadAt State.hostRead
      rw [if_pos inside, if_neg (by simp [ready])]
    have register : ∀ address : Addr, Config.xmWords ≤ address.toNat → s.hostRead address =
        if address.toNat = 0x3FF8 then wordN s.cw.lastStart
        else if address.toNat = 0x3FF9 then s.cw.status
        else if address.toNat = 0x3FFA then s.rn.notice.setWidth 16
        else if address.toNat = 0x3FFB then s.rn.mask.setWidth 16
        else if address.toNat = 0x3FFD then s.stateWord
        else 0 := by
      intro address outside
      unfold State.hostRead
      rw [if_neg (by omega), if_neg (by simp [ready])]
    refine ⟨fun address inside still => ⟨memory address inside, fun p => ?_⟩, later, register 0x3FF8 (by decide), ?_, fun i word => ?_,
      register 0x3FFC (by decide), ?_, fun address unused => ?_⟩
    · rw [later p address inside, State.memoryAt_still inside still]
    · rw [show s.hostRead 0x3FF9 = s.cw.status from register 0x3FF9 (by decide)]
      exact Walker.status_spec bounded
    · rw [show s.hostRead 0x3FFA = s.rn.notice.setWidth 16 from register 0x3FFA (by decide),
        show s.hostRead 0x3FFB = s.rn.mask.setWidth 16 from register 0x3FFB (by decide)]
      constructor <;> exact setWidth_getLsbD _ word
    · rw [show s.hostRead 0x3FFD = s.stateWord from register 0x3FFD (by decide)]
      exact s.stateWord_spec
    · rw [register address (by unfold Config.xmWords; omega)]
      repeat rw [if_neg (by omega)]

end Sys2Proof.Machine

/-! Which notices an operation raises (R181, R182), and the moves of the drive state (1.1, O14). -/

namespace Sys2Proof.Machine

/-! ### Notices -/

theorem Notice.mark_getLsbD (n : Notice) (i : Nat) : n.mark.getLsbD i = decide (i = n.bitNumber) := by
  by_cases word : i < 10
  · have marks : ∀ i : Fin 10, n.mark.getLsbD i = decide (i.val = n.bitNumber) := by cases n <;> decide
    exact marks ⟨i, word⟩
  · have small : n.bitNumber < 10 := by cases n <;> decide
    rw [BitVec.getLsbD_of_ge _ _ (by omega)]
    exact (decide_eq_false (by omega)).symm

@[simp] theorem State.notify_getLsbD (s : State) (n : Notice) (i : Nat) :
    (s.notify n).rn.notice.getLsbD i = (s.rn.notice.getLsbD i || decide (i = n.bitNumber)) := by
  show (s.rn.notice ||| n.mark).getLsbD i = _
  rw [BitVec.getLsbD_or, Notice.mark_getLsbD]

/-- A raised notice is set. -/
theorem State.notify_sets (s : State) (n : Notice) : (s.notify n).rn.notice.getLsbD n.bitNumber = true := by
  rw [State.notify_getLsbD]
  simp

@[simp] theorem State.notifyIf_getLsbD (s : State) (b : Bool) (n : Notice) (i : Nat) :
    (s.notifyIf b n).rn.notice.getLsbD i = (s.rn.notice.getLsbD i || (b && decide (i = n.bitNumber))) := by
  cases b
  · simp [State.notifyIf]
  · exact s.notify_getLsbD n i

/-- A level change raises LEVEL: an entry change always, another under ANY (R117, R182). -/
@[simp] theorem State.notifyLevel_getLsbD (s : State) (entry : Bool) (i : Nat) :
    (s.notifyLevel entry).rn.notice.getLsbD i = (s.rn.notice.getLsbD i || ((entry || s.rn.levelAny) && decide (i = 6))) :=
  s.notifyIf_getLsbD _ .level i

/-- A change of derate raises DERATE: from NONE always, another under ANY (R122, R182). -/
@[simp] theorem State.setDerate_getLsbD (s : State) (d : Derate) (i : Nat) :
    (s.setDerate d).rn.notice.getLsbD i =
      (s.rn.notice.getLsbD i || (decide (s.vw.derate ≠ d) && (s.vw.derate == .none || s.rn.derateAny) && decide (i = 5))) := by
  unfold State.setDerate
  split
  case isTrue same => simp [same]
  case isFalse change =>
    have raised := State.notifyIf_getLsbD { s with vw := { s.vw with derate := d } } (s.vw.derate == .none || s.rn.derateAny) .derate i
    rw [State.notifyDerate, decide_eq_true change, Bool.true_and]
    exact raised

@[simp] theorem State.blindIf_getLsbD (s : State) (b : Bool) (i : Nat) :
    (s.blindIf b).rn.notice.getLsbD i =
      (s.rn.notice.getLsbD i ||
        (b && s.rc.drive.live && decide (s.vw.derate ≠ .blind) && (s.vw.derate == .none || s.rn.derateAny) && decide (i = 5))) := by
  unfold State.blindIf
  split
  case isTrue h => simp [State.establishBlind, h]
  case isFalse h => simp [h]

/-- A notice that is set stays set in the operations of the watch. -/
theorem State.faultEffects_notice {s : State} {i : Nat} (h : s.rn.notice.getLsbD i = true) (l : List (Fin 8)) :
    (s.faultEffects l).rn.notice.getLsbD i = true := by
  unfold State.faultEffects
  split
  · exact h
  · simp [h]

theorem State.completionTest_rn (s : State) : s.completionTest.rn = s.rn := by simp

theorem State.foldGroup_rn (s : State) (g : Chan) (m : List Nat) : (s.foldGroup g m).rn = s.rn := by simp

theorem State.takeFrame_notice {s : State} {i : Nat} (h : s.rn.notice.getLsbD i = true) (f : SampleFrame) :
    (s.takeFrame f).rn.notice.getLsbD i = true := by
  unfold State.takeFrame
  dsimp only
  rw [State.completionTest_rn, State.foldGroup_rn, State.foldGroup_rn]
  exact State.faultEffects_notice (by exact h) _

theorem State.drain_notice {s : State} {i : Nat} (h : s.rn.notice.getLsbD i = true) (l : List SampleFrame) :
    (s.drain l).rn.notice.getLsbD i = true := by
  induction l generalizing s with
  | nil => exact h
  | cons f rest ih =>
    have taken : (State.takeFrame { s with vw := { s.vw with fifo := rest } } f).rn.notice.getLsbD i = true :=
      State.takeFrame_notice (by exact h) f
    unfold State.drain
    dsimp only
    split
    · exact taken
    · exact ih taken

theorem State.endWalk_notice {s : State} {i : Nat} (h : s.rn.notice.getLsbD i = true) (o : WalkOutcome) :
    (s.endWalk o).rn.notice.getLsbD i = true := by
  simp [State.endWalk, h]

theorem State.finishRecord_notice {s : State} {i : Nat} (h : s.rn.notice.getLsbD i = true) (off : Nat) (hd : Header)
    (r : OrderResult) : (s.finishRecord off hd r).rn.notice.getLsbD i = true := by
  have written : (s.writeResult off r).rn.notice.getLsbD i = true := by simpa using h
  unfold State.finishRecord
  dsimp only
  split
  · exact State.endWalk_notice written _
  split
  · exact State.endWalk_notice written _
  · exact written

theorem State.abandonWalk_notice {s : State} {i : Nat} (h : s.rn.notice.getLsbD i = true) : s.abandonWalk.rn.notice.getLsbD i = true := by
  unfold State.abandonWalk
  split
  · exact State.endWalk_notice h .abandoned
  · exact h

/-! ### Reports that trip the drive (R11, R128 to R130) -/

/-- One of the causes given has tripped the drive: TRIP is set, the trip counted, and the cause is first-out. -/
def TrippedBy (raised : Cause → Prop) (s t : State) : Prop :=
  t.rc.drive = .tripped ∧ t.rn.notice.getLsbD 1 = true ∧ t.tu.tripCount = (s.tu.tripCount + 1) % 4294967296 ∧
    ∃ cause, raised cause ∧ t.tu.firstOut = some cause

/-- The drive state and the trip count stand, or one of the causes given has tripped the drive. -/
def TripsBy (raised : Cause → Prop) (s t : State) : Prop :=
  (t.rc.drive = s.rc.drive ∧ t.tu.tripCount = s.tu.tripCount) ∨ TrippedBy raised s t

/-- Operations that leave the drive state and the trip unit, and take no notice away. -/
theorem TripsBy.moved {raised : Cause → Prop} {s t u : State} (h : TripsBy raised s t) (drive : u.rc.drive = t.rc.drive)
    (tu : u.tu = t.tu) (notice : t.rn.notice.getLsbD 1 = true → u.rn.notice.getLsbD 1 = true) : TripsBy raised s u := by
  unfold TripsBy TrippedBy at *
  rw [drive, tu]
  exact h.imp id fun ⟨tripped, trip, rest⟩ => ⟨tripped, notice trip, rest⟩

theorem TripsBy.report {raised : Cause → Prop} {s t : State} (h : TripsBy raised s t) {c : Cause} (raises : raised c) :
    TripsBy raised s (t.report c) := by
  unfold State.report
  split
  case isTrue further =>
    rcases h with ⟨drive, count⟩ | ⟨tripped, trip, count, cause⟩
    · exact .inl ⟨by simpa using drive, count⟩
    · exact .inr ⟨by simpa using tripped, by simpa using trip, count, cause⟩
  case isFalse first =>
    rcases h with ⟨drive, count⟩ | ⟨tripped, -⟩
    · refine .inr ⟨by simp, ?_, by simp [count], c, raises, by simp⟩
      rw [State.firstCause_rn, BitVec.getLsbD_or, Notice.mark_getLsbD]
      simp [Notice.bitNumber]
    · exact absurd tripped first

theorem TripsBy.reportIf {raised : Cause → Prop} {s t : State} (h : TripsBy raised s t) {b : Bool} {c : Cause}
    (raises : b = true → raised c) : TripsBy raised s (t.reportIf b c) := by
  unfold State.reportIf
  split
  case isTrue holds => exact h.report (raises holds)
  case isFalse => exact h

theorem State.breakAwayExpires_trips (s : State) : TripsBy (RaisedBy .breakAwayExpiry s) s s.breakAwayExpires := by
  unfold State.breakAwayExpires
  split
  · exact .inl ⟨rfl, rfl⟩
  · refine TripsBy.reportIf (.inl ⟨rfl, rfl⟩) fun starting => ⟨?_, rfl⟩
    simpa using starting

theorem State.breakDetected_trips (s : State) (ch : Chan) : TripsBy (RaisedBy (.linkBreakDetected ch) s) s (s.breakDetected ch) := by
  unfold State.breakDetected
  split
  · exact TripsBy.reportIf (.inl ⟨rfl, rfl⟩) fun _ => rfl
  · exact .inl ⟨rfl, rfl⟩

theorem State.linkLossExpires_trips (s : State) (ch : Chan) : TripsBy (RaisedBy (.linkLossExpiry ch) s) s (s.linkLossExpires ch) := by
  unfold State.linkLossExpires
  split
  · exact .inl ⟨rfl, rfl⟩
  dsimp only
  split
  · exact TripsBy.reportIf (.inl ⟨rfl, rfl⟩) fun _ => rfl
  · exact .inl ⟨rfl, rfl⟩

theorem State.externalExpires_trips (s : State) : TripsBy (RaisedBy .extripFilterExpiry s) s s.externalExpires := by
  unfold State.externalExpires
  split
  · exact .inl ⟨rfl, rfl⟩
  · exact TripsBy.reportIf (.inl ⟨rfl, rfl⟩) fun _ => rfl

theorem State.linkFrame_trips (s : State) (ch : Chan) (frame : List RxByte) :
    TripsBy (RaisedBy (.linkFrameCompletion ch frame) s) s (s.linkFrame ch frame) := by
  unfold State.linkFrame
  split
  · exact .inl ⟨rfl, rfl⟩
  split
  · exact .inl ⟨rfl, rfl⟩
  split
  · exact .inl ⟨rfl, rfl⟩
  · have regulated : ∀ f, TripsBy (RaisedBy (.linkFrameCompletion ch frame) s) s (s.regulated ch f) := fun f =>
      .inl ⟨by simp [State.regulated], by simp [State.regulated]⟩
    rw [State.acceptMeasure_eq]
    refine TripsBy.reportIf (TripsBy.reportIf (TripsBy.reportIf (regulated _) fun _ => ?_) fun _ => ?_) fun falls => ?_
    · exact ⟨frame, rfl⟩
    · exact ⟨frame, rfl⟩
    · simp only [Bool.and_eq_true] at falls
      exact ⟨falls.1.1.2, frame, rfl⟩

theorem State.counted_drive (s : State) : s.counted.rc.drive = s.rc.drive := by simp [State.counted]

theorem State.countWindow_tripCount (s : State) : s.countWindow.tu.tripCount = s.tu.tripCount := by
  unfold State.countWindow
  split
  · rfl
  split
  · rw [State.closeWindow_tu]
  · rfl

theorem State.handOff_tripCount (s : State) : s.handOff.tu.tripCount = s.tu.tripCount := by
  unfold State.handOff
  dsimp only
  rw [State.countWindow_tripCount]
  simp

theorem State.computed_tripCount (s : State) : s.computed.tu.tripCount = s.tu.tripCount := by
  have fold : s.computed.tu = s.counted.handOff.tu := by simp [State.computed]
  rw [fold, State.handOff_tripCount]
  simp [State.counted]

theorem State.truExpires_trips (s : State) : TripsBy (RaisedBy .truPeriodExpiry s) s s.truExpires := by
  cases timer : s.tru.timer with
  | none => exact .inl (by simp [State.truExpires, timer])
  | some due =>
    have drive : (s.truDue due).counted.rc.drive = s.rc.drive := State.counted_drive _
    have computed : TripsBy (RaisedBy .truPeriodExpiry s) s (s.truDue due).computed := by
      refine .inl ⟨?_, State.computed_tripCount _⟩
      simp only [State.computed, State.sectorFold_keeps, State.handOff_keeps]
      exact drive
    rw [State.truExpires_eq timer, State.compute_eq]
    have excess : (s.truDue due).counted.excessFound = true → RaisedBy .truPeriodExpiry s .torqueExcess := fun found => by
      simp only [State.excessFound, Bool.and_eq_true, drive] at found
      exact ⟨found.1.1, rfl⟩
    have imbalance : (s.truDue due).counted.imbalanceFound = true → RaisedBy .truPeriodExpiry s .pinionImbalance := fun found => by
      simp only [State.imbalanceFound, Bool.and_eq_true, drive] at found
      exact ⟨found.1.1, rfl⟩
    exact (computed.reportIf excess).reportIf imbalance

theorem State.evaluationEnds_trips (s : State) : TripsBy (RaisedBy .evaluationEnd s) s s.evaluationEnds := by
  cases evaluation : s.vw.evaluation with
  | none => exact .inl (by simp [State.evaluationEnds, evaluation])
  | some e =>
    have evaluated : TripsBy (RaisedBy .evaluationEnd s) s (s.evaluated e) := by
      refine .inl ⟨?_, ?_⟩
      · rw [(s.evaluated_moves e).rc]
      · rw [(s.evaluated_moves e).tu]
    have reported : TripsBy (RaisedBy .evaluationEnd s) s (s.dangersReported e) := by
      unfold State.dangersReported
      dsimp only
      split
      case isTrue live =>
        rw [(s.evaluated_moves e).rc] at live
        have raises : ∀ i, RaisedBy .evaluationEnd s (.vibrationDanger i) := fun _ => ⟨live, rfl⟩
        exact foldl_keeps (P := TripsBy (RaisedBy .evaluationEnd s) s) (fun u i hu => hu.report (raises i)) _ evaluated
      case isFalse => exact evaluated
    rw [State.evaluationEnds_eq evaluation]
    refine reported.moved ?_ ?_ fun trip => State.drain_notice (by exact trip) _
    · rw [(State.drain_moves _ _).rc]
    · rw [(State.drain_moves _ _).tu]

theorem State.urgentStop_trips {s : State} {w : Word} (keeps : controlReset w = false) :
    TripsBy (RaisedBy (.urgentStop w) s) s (s.writeControl w) := by
  unfold State.writeControl
  rw [keeps]
  split
  · exact .inl ⟨rfl, rfl⟩
  rw [if_neg (by simp)]
  split
  · have reported : TripsBy (RaisedBy (.urgentStop w) s) s (s.report .urgentStop) := TripsBy.report (.inl ⟨rfl, rfl⟩) ⟨w, rfl⟩
    exact reported.moved (by simp) (by simp) State.abandonWalk_notice
  split
  · exact .inl (by simp)
  · exact .inl ⟨rfl, rfl⟩

theorem State.testTrip_trips (s : State) : TripsBy (RaisedBy .testTrip s) s (takeUp .testTrip ownTestTrip s) := by
  refine takeUp_keeps (P := TripsBy (RaisedBy .testTrip s) s) (.inl ⟨rfl, rfl⟩) ?_ fun u off hd r hu =>
    hu.moved (by simp) (by simp) fun trip => State.finishRecord_notice trip off hd r
  unfold ownTestTrip
  split
  case isTrue stopped => exact TripsBy.report (.inl ⟨rfl, rfl⟩) ⟨stopped, rfl⟩
  case isFalse => exact .inl ⟨rfl, rfl⟩

/-! ### The table of drive states (1.1) -/

/-- The moves of the table other than into TRIPPED and than a reset's, each with its command (R6, R8 to R10, R12). -/
def TableMove (c : Instr) (s t : State) : Prop :=
  t.rn.notice.getLsbD 9 = true ∧
    ((c = .run ∧ s.rc.drive = .stopped ∧ t.rc.drive = .starting) ∨
      (c = .speedWindowExpiry ∧ s.rc.drive = .starting ∧ t.rc.drive = .running) ∨
      (c = .stop ∧ (s.rc.drive = .starting ∨ s.rc.drive = .running) ∧ t.rc.drive = .stopping) ∨
      (c = .stopHoldExpiry ∧ s.rc.drive = .stopping ∧ t.rc.drive = .stopped) ∨
      (c = .tripReset ∧ s.rc.drive = .tripped ∧ t.rc.drive = .stopped))

/-- The drive state stands, or makes a move of the table. -/
def DriveByTable (c : Instr) (s t : State) : Prop :=
  t.rc.drive = s.rc.drive ∨ TrippedBy (RaisedBy c s) s t ∨ TableMove c s t ∨
    (t.rc.drive = .stopped ∧ (c = .powerOn ∨ c = .resetPin ∨ ∃ w, c = .deviceReset w))

theorem TripsBy.table {c : Instr} {s t : State} (h : TripsBy (RaisedBy c s) s t) : DriveByTable c s t := h.imp And.left .inl

theorem TableMove.finishRecord {c : Instr} {s t : State} (h : TableMove c s t) (off : Nat) (hd : Header) (r : OrderResult) :
    TableMove c s (t.finishRecord off hd r) := by
  obtain ⟨state, move⟩ := h
  refine ⟨State.finishRecord_notice state off hd r, ?_⟩
  rw [show (t.finishRecord off hd r).rc = t.rc by simp]
  exact move

/-- A take-up leaves the drive state, or its owner makes a move of the table. -/
theorem DriveByTable.takeUp {c : Instr} {s : State} {k : OrderKind} {owner : Order → State → State × OrderResult}
    (act : (owner s.recordOrder s.countRecord).1.rc.drive = s.rc.drive ∨ TableMove c s (owner s.recordOrder s.countRecord).1) :
    DriveByTable c s (takeUp k owner s) := by
  rcases takeUp_cases k owner s with e | e <;> rw [e]
  · exact .inl rfl
  rcases act with stands | move
  · exact .inl (by simpa using stands)
  · exact .inr (.inr (.inl (move.finishRecord _ _ _)))

theorem State.warmReset_drive (s : State) (e : Option Nat) : (s.warmReset e).rc.drive = s.rc.drive ∨ (s.warmReset e).rc.drive = .stopped := by
  unfold State.warmReset
  split
  · exact .inl rfl
  · exact .inr rfl

theorem ownRun_table (o : Order) (s : State) :
    (ownRun o s).1.rc.drive = s.rc.drive ∨
      ((ownRun o s).1.rn.notice.getLsbD 9 = true ∧ s.rc.drive = .stopped ∧ (ownRun o s).1.rc.drive = .starting) := by
  unfold ownRun
  split
  · exact .inl rfl
  case h_2 passes =>
    refine .inr ⟨?_, State.runRefusal_eq_none_drive passes, by simp [State.startRun]⟩
    unfold State.startRun
    dsimp only
    rw [State.blindIf_getLsbD, Bool.or_eq_true]
    exact .inl (State.notify_sets _ .state)

theorem State.enterStopping_notice (s : State) : s.enterStopping.rn.notice.getLsbD 9 = true := by
  have kept : s.enterStopping.rn = (State.notify { s with rc := { s.rc with drive := .stopping, breakAway := none } } .state).rn := by
    simp [State.enterStopping]
  rw [kept]
  exact State.notify_sets _ .state

theorem ownStop_table (o : Order) (s : State) :
    (ownStop o s).1.rc.drive = s.rc.drive ∨
      ((ownStop o s).1.rn.notice.getLsbD 9 = true ∧ (s.rc.drive = .starting ∨ s.rc.drive = .running) ∧
        (ownStop o s).1.rc.drive = .stopping) := by
  unfold ownStop
  split
  case h_1 starting => exact .inr ⟨s.enterStopping_notice, .inl starting, s.enterStopping_drive⟩
  case h_2 running => exact .inr ⟨s.enterStopping_notice, .inr running, s.enterStopping_drive⟩
  all_goals exact .inl rfl

theorem ownTripReset_table (o : Order) (s : State) :
    (ownTripReset o s).1.rc.drive = s.rc.drive ∨
      ((ownTripReset o s).1.rn.notice.getLsbD 9 = true ∧ s.rc.drive = .tripped ∧ (ownTripReset o s).1.rc.drive = .stopped) := by
  unfold ownTripReset
  split
  · exact .inl rfl
  case isFalse tripped =>
    split
    · exact .inl rfl
    split
    · exact .inl rfl
    · exact .inr ⟨State.notify_sets _ .state, not_not.1 tripped, by simp [State.leaveTripped]⟩

theorem State.speedWindow_table (s : State) : DriveByTable .speedWindowExpiry s s.speedWindow := by
  unfold State.speedWindow
  split
  · exact .inl rfl
  dsimp only
  unfold State.useSpeed
  split
  case h_1 starting =>
    split
    · refine .inr (.inr (.inl ⟨State.notify_sets _ .state, .inr (.inl ⟨rfl, starting, ?_⟩)⟩))
      simp [State.enterRunning]
    · exact .inl rfl
  case h_2 => exact .inl (by simp)
  all_goals exact .inl rfl

theorem State.stopHoldExpires_table (s : State) : DriveByTable .stopHoldExpiry s s.stopHoldExpires := by
  unfold State.stopHoldExpires
  split
  · exact .inl rfl
  dsimp only
  split
  case isTrue stopping =>
    refine .inr (.inr (.inl ⟨State.notify_sets _ .state, .inr (.inr (.inr (.inl ⟨rfl, stopping, ?_⟩)))⟩))
    simp [State.enterStopped]
  case isFalse => exact .inl rfl

theorem State.pinLow_table (s : State) : DriveByTable .resetPin s s.pinLow := by
  unfold State.pinLow
  split
  · exact .inl rfl
  · exact (State.warmReset_drive { s with resetLow := true } none).imp id fun stopped => .inr (.inr ⟨stopped, .inr (.inl rfl)⟩)

theorem State.deviceReset_table {s : State} {w : Word} (resets : controlReset w = true) :
    DriveByTable (.deviceReset w) s (s.writeControl w) := by
  unfold State.writeControl
  split
  · exact .inl rfl
  · exact (s.warmReset_drive _).imp id fun stopped => .inr (.inr ⟨stopped, .inr (.inr ⟨w, rfl⟩)⟩)

/-- The drive state moves only by the events of the table. -/
theorem exec_driveByTable {c : Instr} {s t : State} (wf : c.wf = true) (hc : exec c s = .next t) : DriveByTable c s t := by
  have order : ∀ k : OrderKind, k ≠ .run → k ≠ .stop → k ≠ .tripReset → k ≠ .testTrip → c = k.command → DriveByTable c s t := by
    rintro k run stop reset test rfl
    obtain rfl : takeUp k k.owner s = t := Host.Outcome.next.inj ((exec_command k s).symm.trans hc)
    exact DriveByTable.takeUp (.inl (OrderKind.owner_drive run stop reset test _ _))
  cases c
  case setLoop => exact order .setLoop nofun nofun nofun nofun rfl
  case setLimits => exact order .setLimits nofun nofun nofun nofun rfl
  case loadEnvelope => exact order .loadEnvelope nofun nofun nofun nofun rfl
  case setShare => exact order .setShare nofun nofun nofun nofun rfl
  case setReference => exact order .setReference nofun nofun nofun nofun rfl
  case setSensor => exact order .setSensor nofun nofun nofun nofun rfl
  case setWatch => exact order .setWatch nofun nofun nofun nofun rfl
  case setPosition => exact order .setPosition nofun nofun nofun nofun rfl
  case setReport => exact order .setReport nofun nofun nofun nofun rfl
  case isolate => exact order .isolate nofun nofun nofun nofun rfl
  case restore => exact order .restore nofun nofun nofun nofun rfl
  case clearDerate => exact order .clearDerate nofun nofun nofun nofun rfl
  case injectLevel => exact order .injectLevel nofun nofun nofun nofun rfl
  case transferCounts => exact order .transferCounts nofun nofun nofun nofun rfl
  all_goals obtain rfl := Host.Outcome.next.inj hc
  case run =>
    exact DriveByTable.takeUp ((ownRun_table _ _).imp id fun ⟨state, stopped, starting⟩ => ⟨state, .inl ⟨rfl, stopped, starting⟩⟩)
  case stop =>
    exact DriveByTable.takeUp ((ownStop_table _ _).imp id fun ⟨state, live, stopping⟩ =>
      ⟨state, .inr (.inr (.inl ⟨rfl, live, stopping⟩))⟩)
  case tripReset =>
    exact DriveByTable.takeUp ((ownTripReset_table _ _).imp id fun ⟨state, tripped, stopped⟩ =>
      ⟨state, .inr (.inr (.inr (.inr ⟨rfl, tripped, stopped⟩)))⟩)
  case powerOn => exact .inr (.inr (.inr ⟨rfl, .inl rfl⟩))
  case resetPin => exact s.pinLow_table
  case deviceReset => exact State.deviceReset_table (by exact wf)
  case urgentStop => exact (State.urgentStop_trips (by simpa using (Bool.and_eq_true_iff.1 wf).2)).table
  case testTrip => exact s.testTrip_trips.table
  case truPeriodExpiry => exact s.truExpires_trips.table
  case breakAwayExpiry => exact s.breakAwayExpires_trips.table
  case linkFrameCompletion => exact (s.linkFrame_trips _ _).table
  case linkBreakDetected => exact (s.breakDetected_trips _).table
  case linkLossExpiry => exact (s.linkLossExpires_trips _).table
  case evaluationEnd => exact s.evaluationEnds_trips.table
  case extripFilterExpiry => exact s.externalExpires_trips.table
  case stopHoldExpiry => exact s.stopHoldExpires_table
  case speedWindowExpiry => exact s.speedWindow_table
  case registerWriteIgnored => exact .inl (by simp [State.busWrite_ignored s (registerWriteIgnored_wf wf)])
  case hostMemoryWrite => exact .inl (by rw [State.busWrite_memory s (hostMemoryWrite_wf wf)]; simp)
  case abandonChain => exact .inl (by rw [State.abandonChain_eq wf]; split <;> simp)
  case quadratureChange => exact .inl (by split <;> rfl)
  case markerArrival => exact .inl (by split <;> rfl)
  case initEnd =>
    refine .inl ?_
    unfold State.endInit
    split <;> rfl
  case resetPinReturnsHigh =>
    refine .inl ?_
    unfold State.pinHigh
    (repeat' split) <;> rfl
  all_goals exact .inl (by simp)

/-- Settles O14. -/
theorem driveStateMovesByTheTable : Obligations.DriveStateMovesByTheTable := by
  intro c s t wf hc moved
  rcases exec_driveByTable wf hc with stands | trips | move | reset
  · exact absurd stands moved
  · exact .inl trips
  · exact .inr (.inl move)
  · exact .inr (.inr reset)

end Sys2Proof.Machine

/-! The words that are the host's: the part writes none but the result word of the record taken up (9.1, O15). -/

namespace Sys2Proof.Machine

/-- The words the part writes but for result words: the report block, the chronicle, the sector table with its summary, and the
slots (9.1). -/
def PartRegion (a : Nat) : Prop := (0x0010 ≤ a ∧ a ≤ 0x030F) ∨ 0x1000 ≤ a

theorem Chronicle.part {a : Nat} (h : Chronicle a) : PartRegion a := .inl ⟨by have := h.1; omega, by have := h.2; omega⟩

theorem partRegion_slot (n : Fin 4) (i : Nat) : PartRegion (slotStateOffset n + i) := .inr (by unfold slotStateOffset; omega)

theorem InsideSlot.part {n : Fin 4} {a : Nat} (h : InsideSlot n a) : PartRegion a := .inr (by have := h.1; unfold slotStateOffset at this; omega)

/-- The operations in flight write no word of the host. -/
theorem State.cellsInFlight_part {s : State} (layout : s.LayoutInv) : ∀ c ∈ s.cellsInFlight, PartRegion c.1 := by
  obtain ⟨pt, rn, rcu, -⟩ := s.layoutInv_iff.1 layout
  obtain ⟨-, tables, -⟩ := pt
  obtain ⟨blocks, -⟩ := rn
  intro c hc
  rw [State.cellsInFlight, List.flatten_append, List.flatten_append, List.mem_append, List.mem_append] at hc
  rcases hc with (publication | report) | copy
  · cases flight : s.pt.inFlight with
    | none => simp [State.stages, flight] at publication
    | some p =>
      rw [State.stages, flight] at publication
      obtain ⟨low, high⟩ := Publication.cells_bounds (tables p flight) c publication
      exact .inl ⟨by omega, by omega⟩
  · cases flight : s.rn.inFlight with
    | none => simp [State.stages, flight] at report
    | some ws =>
      rw [State.stages, flight] at report
      rw [flatten_reportStages] at report
      obtain ⟨low, high⟩ := mem_cellRun report
      rw [blocks ws flight] at high
      exact .inl ⟨by omega, by omega⟩
  · cases capture : s.rcu.capture with
    | none => simp [State.stages, capture] at copy
    | some n =>
      cases job : s.rcu.copy with
      | none => simp [State.stages, capture, job] at copy
      | some j =>
        rw [State.stages, capture, job] at copy
        exact (State.RcuSized.cells rcu n j job c copy).part

/-- A warm reset leaves the words of the host. -/
theorem State.warmReset_hostWord {s : State} (layout : s.LayoutInv) {a : Nat} (inside : a < Config.xmWords) (host : ¬PartRegion a)
    (e : Option Nat) : (s.warmReset e).xm.read a = s.xm.read a := by
  refine State.warmReset_xm (Memory.keptBy_read inside (s.xm.read a)) (fun n e => host (e ▸ partRegion_slot n 0)) ?_ rfl e
  exact State.memoryAt_still inside (fun c hc e => host (e ▸ s.cellsInFlight_part layout c hc)) _

/-- A report of a cause writes the chronicle and a state word. -/
theorem State.report_hostWord {s : State} {a : Nat} (inside : a < Config.xmWords) (host : ¬PartRegion a) (c : Cause) {w : Word}
    (h : s.xm.read a = w) : (s.report c).xm.read a = w :=
  State.report_xm (Memory.keptBy_read inside w) (fun _ entry e => host (e ▸ entry.part)) (fun _ n _ e => host (e ▸ partRegion_slot n 0)) h c

/-- A take-up writes the result word of its record. -/
theorem State.takeUp_hostWord {s : State} {k : OrderKind} {a : Nat} (inside : a < Config.xmWords) (host : ¬PartRegion a)
    (result : s.cw.walking = true → a ≠ s.cw.nextOffset + 1) : (takeUp k k.owner s).xm.read a = s.xm.read a := by
  have acted : (k.owner s.recordOrder s.countRecord).1.xm.read a = s.xm.read a := by
    cases k
    case testTrip =>
      show (ownTestTrip s.recordOrder s.countRecord).1.xm.read a = s.xm.read a
      unfold ownTestTrip
      split
      · exact State.report_hostWord inside host .test rfl
      · rfl
    all_goals simp [OrderKind.owner]
  unfold takeUp
  split
  case isTrue ready =>
    exact State.finishRecord_xm (Memory.keptBy_read inside (s.xm.read a)) (fun _ _ => (result (State.recordKind_eq_some ready).1).symm)
      acted _ _
  case isFalse => rfl

/-- A computation writes its snapshot and what a window's close writes. -/
theorem State.computed_hostWord {s : State} (trip : s.TripInv) (sized : s.rcu.Sized) {a : Nat} (inside : a < Config.xmWords)
    (host : ¬PartRegion a) : s.computed.xm.read a = s.xm.read a := by
  have same : s.counted.rcu = s.rcu := by simp [State.counted]
  have trip' : s.counted.TripInv := trip.of_same (by simp [State.counted]) (by simp [State.counted, TripUnit.SameTrip])
    (by simp [State.counted, RecordCapture.SameCapture])
  have handed : s.counted.handOff.xm.read a = s.xm.read a :=
    State.handOff_xm (Memory.keptBy_read inside (s.xm.read a)) (fun _ entry e => host (e ▸ entry.part))
      (fun _ capture _ hi e => host (e ▸ (State.place_inside trip' (same ▸ sized) capture hi).part))
      (fun n j _ copy c hc e => host (e ▸ (State.RcuSized.cells (same ▸ sized) n j copy c hc).part))
      (fun n _ i _ e => host (e ▸ partRegion_slot n i)) (by simp [State.counted])
  simpa [State.computed] using handed

/-- Every command but a host write and POWER_ON leaves the words of the host but the result word of a record taken up. -/
theorem exec_hostWord {c : Instr} {s t : State} {a : Nat} (slots : s.SlotInv) (wf : c.wf = true) (hc : exec c s = .next t)
    (noWrite : ∀ address v, c ≠ .hostMemoryWrite address v) (noPower : c ≠ .powerOn) (inside : a < Config.xmWords)
    (host : ¬PartRegion a) (result : TakesUp c → s.cw.walking = true → a ≠ s.cw.nextOffset + 1) : t.xm.read a = s.xm.read a := by
  obtain ⟨trip, layout, -⟩ := slots
  obtain ⟨pt, rn, rcu, cw⟩ := s.layoutInv_iff.1 layout
  have report : ∀ (u : State) c, u.xm.read a = s.xm.read a → (u.report c).xm.read a = s.xm.read a := fun _ c hu =>
    State.report_hostWord inside host c hu
  have control : ∀ w, (s.writeControl w).xm.read a = s.xm.read a := fun w =>
    State.writeControl_of (P := fun u => u.xm.read a = s.xm.read a) rfl report (State.warmReset_hostWord layout inside host)
      (fun _ hu => by simpa using hu) w
  have order : ∀ k : OrderKind, c = k.command → t.xm.read a = s.xm.read a := by
    rintro k rfl
    obtain rfl : takeUp k k.owner s = t := Host.Outcome.next.inj ((exec_command k s).symm.trans hc)
    exact State.takeUp_hostWord inside host (result (.inl ⟨k, rfl⟩))
  cases c
  case setLoop => exact order .setLoop rfl
  case setLimits => exact order .setLimits rfl
  case loadEnvelope => exact order .loadEnvelope rfl
  case setShare => exact order .setShare rfl
  case setReference => exact order .setReference rfl
  case setSensor => exact order .setSensor rfl
  case setWatch => exact order .setWatch rfl
  case setPosition => exact order .setPosition rfl
  case setReport => exact order .setReport rfl
  case run => exact order .run rfl
  case stop => exact order .stop rfl
  case tripReset => exact order .tripReset rfl
  case isolate => exact order .isolate rfl
  case restore => exact order .restore rfl
  case clearDerate => exact order .clearDerate rfl
  case testTrip => exact order .testTrip rfl
  case injectLevel => exact order .injectLevel rfl
  case transferCounts => exact order .transferCounts rfl
  case hostMemoryWrite address v => exact absurd rfl (noWrite address v)
  case powerOn => exact absurd rfl noPower
  all_goals obtain rfl := Host.Outcome.next.inj hc
  case resetPin =>
    unfold State.pinLow
    split
    · rfl
    · exact State.warmReset_hostWord (s := { s with resetLow := true }) layout inside host none
  case urgentStop w => exact control w
  case abandonChain w => exact control w
  case deviceReset w => exact control w
  case registerWriteIgnored => rw [State.busWrite_ignored s (registerWriteIgnored_wf wf)]
  case slotRelease n v =>
    refine State.writeMemory_xm (Memory.keptBy_read inside (s.xm.read a)) (fun _ e => ?_) (fun _ _ e => ?_) rfl
    all_goals exact host (e ▸ partRegion_slot n 0)
  case orderFormatFault =>
    exact State.takeUpFault_xm (Memory.keptBy_read inside (s.xm.read a)) (fun walking _ _ => (result (.inr rfl) walking).symm) rfl
  case truPeriodExpiry =>
    refine State.truExpires_of (P := fun u => u.xm.read a = s.xm.read a) rfl report fun due => ?_
    have due' : (s.truDue due).TripInv := trip.of_eq rfl rfl rfl
    exact State.computed_hostWord due' rcu inside host
  case breakAwayExpiry => exact State.breakAwayExpires_of (P := fun u => u.xm.read a = s.xm.read a) rfl report fun _ => rfl
  case linkFrameCompletion ch frame =>
    exact State.linkFrame_of (P := fun u => u.xm.read a = s.xm.read a) rfl report rfl rfl (fun _ => by simp [State.regulated]) frame
  case linkBreakDetected => exact State.breakDetected_of (P := fun u => u.xm.read a = s.xm.read a) rfl report rfl
  case linkLossExpiry =>
    exact State.linkLossExpires_of (P := fun u => u.xm.read a = s.xm.read a) rfl report (fun _ => rfl) fun _ => rfl
  case evaluationEnd =>
    exact State.evaluationEnds_of (P := fun u => u.xm.read a = s.xm.read a) rfl report fun _ _ m hu => m.xm ▸ hu
  case extripFilterExpiry => exact State.externalExpires_of (P := fun u => u.xm.read a = s.xm.read a) rfl report fun _ => rfl
  case recordCopyCompletion =>
    exact State.completeCopy_xm (Memory.keptBy_read inside (s.xm.read a))
      (fun n j _ copy c hc e => host (e ▸ (State.RcuSized.cells rcu n j copy c hc).part)) (fun n _ e => host (e ▸ partRegion_slot n 14)) rfl
  case publicationCompletion =>
    refine State.completePublication_xm (Memory.keptBy_read inside (s.xm.read a)) (fun p flight c hc e => host ?_) rfl
    obtain ⟨low, high⟩ := Publication.cells_bounds (pt.2.1 p flight) c hc
    exact e ▸ .inl ⟨by omega, by omega⟩
  case reportCompletion =>
    refine State.completeReport_xm (Memory.keptBy_read inside (s.xm.read a)) (fun ws flight i hi e => host ?_) rfl
    rw [rn.1 ws flight] at hi
    exact e ▸ .inl ⟨by omega, by omega⟩
  case quadratureChange => split <;> rfl
  case markerArrival => split <;> rfl
  case initEnd =>
    unfold State.endInit
    split <;> rfl
  case resetPinReturnsHigh =>
    unfold State.pinHigh
    (repeat' split) <;> rfl
  all_goals simp

/-- Settles O15. -/
theorem partWritesNoHostWord : Obligations.PartWritesNoHostWord := by
  intro c s t a slots wf hc noWrite noPower host
  refine exec_hostWord slots wf hc noWrite noPower ?_ ?_ ?_
  · unfold Config.xmWords
    rcases host with demand | ⟨-, high, -⟩ <;> omega
  · unfold PartRegion
    rcases host with demand | ⟨low, high, -⟩ <;> omega
  · intro takes walking here
    rcases host with demand | ⟨-, -, other⟩
    · obtain ⟨-, layout, -⟩ := slots
      obtain ⟨-, -, -, ⟨low, -⟩, -⟩ := s.layoutInv_iff.1 layout
      omega
    · exact other ⟨takes, walking, here⟩

end Sys2Proof.Machine

/-! Targets and parameters of orders (R174, 9.5): the first parameter out of range, the orders that replace values, and what a refusal
can be (O23, O24, O25, O27, O28). -/

namespace Sys2Proof.Machine

/-! ### Targets (R174, 11.4) -/

theorem State.targetCode_lt (s : State) : s.targetCode < 16 := Nat.mod_lt _ (by decide)

/-- A, B and PAIR name channels; no other target does. -/
theorem targetChannels_ofCode {c : Nat} (field : c < 16) :
    targetChannels (Target.ofCode c) =
      if c = 9 then some [.a] else if c = 10 then some [.b] else if c = 11 then some [.a, .b] else none := by
  interval_cases c <;> rfl

/-- A sensor channel and ALL name sensor channels; no other target does. -/
theorem targetSensors_ofCode {c : Nat} (field : c < 16) :
    targetSensors (Target.ofCode c) = if h : c < 8 then some [⟨c, h⟩] else if c = 8 then some sensorNumbers else none := by
  interval_cases c <;> rfl

/-- The channel that a target names alone. -/
theorem ofCode_chan (ch : Chan) : Target.ofCode (9 + chanIndex ch) = .chan ch := by cases ch <;> rfl

theorem ofCode_sensor (n : Fin 8) : Target.ofCode n.val = .sensor n := by revert n; decide

/-- A target that ISOLATE and RESTORE do not take names no channel alone. -/
theorem ofCode_ne_chan {c : Nat} (field : c < 16) (other : ¬(9 ≤ c ∧ c ≤ 10)) (ch : Chan) : Target.ofCode c ≠ .chan ch := by
  have all : ∀ c : Fin 16, ¬(9 ≤ c.val ∧ c.val ≤ 10) → Target.ofCode c.val ≠ .chan .a ∧ Target.ofCode c.val ≠ .chan .b := by decide
  obtain ⟨notA, notB⟩ := all ⟨c, field⟩ other
  cases ch
  · exact notA
  · exact notB

theorem ofCode_ne_sensor {c : Nat} (field : c < 16) (other : ¬c ≤ 7) (n : Fin 8) : Target.ofCode c ≠ .sensor n := by
  have all : ∀ (c : Fin 16) (n : Fin 8), ¬c.val ≤ 7 → Target.ofCode c.val ≠ .sensor n := by decide
  exact all ⟨c, field⟩ n other

/-! ### Range checks (R38, R39, R54, R56, R97, R123, R124, R184) -/

theorem inRange_iff (x lo hi : Nat) : inRange x lo hi = true ↔ lo ≤ x ∧ x ≤ hi := by
  rw [inRange, Bool.and_eq_true, decide_eq_true_eq, decide_eq_true_eq]

theorem State.par_lt (s : State) (i : Nat) : s.par i < 65536 := (s.xm.read _).isLt

/-- The range checks that the owner of an order makes, in its order; none for an order whose refusal names no parameter. -/
def OrderKind.checks (k : OrderKind) (o : Order) : List Bool :=
  match k with
  | .setLoop => [true, true, inRange (o.p 2) 0 16384]
  | .setLimits =>
    [inRange (o.p 0) 0 32767, inRange (o.p 1) 0 32767, inRange (o.p 2) 0 32767, inRange (o.p 3) 0 32767,
     inRange (o.p 4) 1 32767]
  | .setShare => [inRange (o.p 0) 0 4096, inRange (o.p 1) 0 32767, inRange (o.p 2) 1 10000]
  | .setReference =>
    [inRange (o.p 0) 250 4000 && o.p 0 % 250 == 0, inRange (o.p 1) 1 8192, inRange (o.p 2) 1 8192,
     inRange (o.p 3) 1 1000, inRange (o.p 4) 0 10000]
  | .setSensor =>
    [inRange (o.p 0) 0 1, inRange (o.p 1) 0 1, inRange (o.p 2) 0 32767,
     inRange (o.p 3) 0 32767 && decide (o.p 2 < o.p 3), inRange (o.p 4) 0 32767, inRange (o.p 5) 0 1]
  | .setWatch =>
    [o.p 0 == 256 || o.p 0 == 512 || o.p 0 == 1024 || o.p 0 == 2048, inRange (o.p 1) 1 1000, inRange (o.p 2) 1 1000,
     inRange (o.p 3) 1 1000, inRange (o.p 4) 1 65535, inRange (o.p 5) 1 65535, inRange (o.p 6) 0 4096,
     inRange (o.p 7) 16 1024, inRange (o.p 8) 100 2000]
  | .setPosition =>
    [inRange (o.p 0) 64 65535, inRange (o.p 1) 0 (o.p 0 / 8), inRange (o.p 2) 10 1000, inRange (o.p 3) 1 65535,
     inRange (o.p 4) 1 4096, inRange (o.p 5) 1 60, inRange (o.p 6) 100 60000]
  | .setReport =>
    [inRange (o.p 0) 100 10000, inRange (o.p 1) 0 1, inRange (o.p 2) 0 1, inRange (o.p 3) 0 1, inRange (o.p 4) 200 5000]
  | _ => []

/-- The owner's checks of a ready record are the statement's. -/
theorem State.RecordReady.checks {s : State} {k : OrderKind} (hr : s.RecordReady k) :
    s.parameterChecks k = (k.checks s.recordOrder).map fun b => b = true := by
  have small : ∀ i, s.par i ≤ 65535 := fun i => Nat.le_of_lt_succ (s.par_lt i)
  cases k
  case setLoop => simp [State.parameterChecks, OrderKind.checks, inRange_iff, hr.par 2 (by decide)]
  case setLimits =>
    simp [State.parameterChecks, OrderKind.checks, inRange_iff, hr.par 0 (by decide), hr.par 1 (by decide), hr.par 2 (by decide),
      hr.par 3 (by decide), hr.par 4 (by decide)]
  case setShare =>
    simp [State.parameterChecks, OrderKind.checks, inRange_iff, hr.par 0 (by decide), hr.par 1 (by decide), hr.par 2 (by decide)]
  case setReference =>
    simp [State.parameterChecks, OrderKind.checks, inRange_iff, hr.par 0 (by decide), hr.par 1 (by decide), hr.par 2 (by decide),
      hr.par 3 (by decide), hr.par 4 (by decide), and_assoc]
  case setSensor =>
    simp [State.parameterChecks, OrderKind.checks, inRange_iff, hr.par 0 (by decide), hr.par 1 (by decide), hr.par 2 (by decide),
      hr.par 3 (by decide), hr.par 4 (by decide), hr.par 5 (by decide)]
  case setWatch =>
    simp [State.parameterChecks, OrderKind.checks, inRange_iff, hr.par 0 (by decide), hr.par 1 (by decide), hr.par 2 (by decide),
      hr.par 3 (by decide), hr.par 4 (by decide), hr.par 5 (by decide), hr.par 6 (by decide), hr.par 7 (by decide),
      hr.par 8 (by decide), or_assoc, small]
  case setPosition =>
    simp [State.parameterChecks, OrderKind.checks, inRange_iff, hr.par 0 (by decide), hr.par 1 (by decide), hr.par 2 (by decide),
      hr.par 3 (by decide), hr.par 4 (by decide), hr.par 5 (by decide), hr.par 6 (by decide), small]
  case setReport =>
    simp [State.parameterChecks, OrderKind.checks, inRange_iff, hr.par 0 (by decide), hr.par 1 (by decide), hr.par 2 (by decide),
      hr.par 3 (by decide), hr.par 4 (by decide)]
  all_goals rfl

/-- The first check that fails is the one before which all pass. -/
theorem firstBad_eq_some {checks : List Bool} {i : Nat} (fails : checks[i]? = some false) (passes : ∀ b ∈ checks.take i, b = true) :
    firstBad checks = some (i + 1) := by
  induction checks generalizing i with
  | nil => simp at fails
  | cons b rest ih =>
    cases i with
    | zero =>
      obtain rfl : b = false := by simpa using fails
      rfl
    | succ i =>
      obtain rfl : b = true := passes b (by simp)
      have found := ih (i := i) (by simpa using fails) fun c hc => passes c (by simp [hc])
      simp [firstBad, found]

/-- The answer of range checks names the first that fails. -/
theorem firstBad_le {checks : List Bool} {d : Nat} (bad : firstBad checks = some d) : d ≤ checks.length := by
  induction checks generalizing d with
  | nil => cases bad
  | cons b rest ih =>
    cases b with
    | false =>
      obtain rfl : 1 = d := by simpa [firstBad] using bad
      simp
    | true =>
      obtain ⟨e, later, rfl⟩ : ∃ e, firstBad rest = some e ∧ e + 1 = d := by simpa [firstBad] using bad
      simpa using ih later

section
variable {o : Order} (s : State)

theorem ownSetLoop_eq {chans : List Chan} (named : targetChannels o.target = some chans) :
    ownSetLoop o s = rangeChecked (OrderKind.setLoop.checks o) s fun t => chans.foldl (setLoopOn (o.p 0) (o.p 1) (o.p 2)) t := by
  unfold ownSetLoop
  rw [named]
  rfl

theorem ownSetLimits_eq {chans : List Chan} (named : targetChannels o.target = some chans) :
    ownSetLimits o s = rangeChecked (OrderKind.setLimits.checks o) s fun t =>
      chans.foldl (setLimitsOn (o.p 0) (o.p 1) (o.p 2)) { t with tru := { t.tru with margin := o.p 3, pte := o.p 4 } } := by
  unfold ownSetLimits
  rw [named]
  rfl

theorem ownSetSensor_eq {targets : List (Fin 8)} (named : targetSensors o.target = some targets) :
    ownSetSensor o s = rangeChecked (OrderKind.setSensor.checks o) s fun t =>
      State.blindIf (targets.foldl (setSensorOn o) t) (trippableFault (targets.foldl (setSensorOn o) t) targets) := by
  unfold ownSetSensor
  rw [named]
  rfl

end

/-- A target that names channels. -/
theorem targetChannels_named {c : Nat} (taken : 9 ≤ c ∧ c ≤ 11) : ∃ chans, targetChannels (Target.ofCode c) = some chans := by
  obtain ⟨low, high⟩ := taken
  interval_cases c <;> exact ⟨_, rfl⟩

/-- A target that names sensor channels. -/
theorem targetSensors_named {c : Nat} (taken : c ≤ 8) : ∃ targets, targetSensors (Target.ofCode c) = some targets := by
  interval_cases c <;> exact ⟨_, rfl⟩

/-- The owner of an order with range checks answers by them, once it takes the target. -/
theorem OrderKind.owner_checked {k : OrderKind} {o : Order} {c : Nat} (target : o.target = Target.ofCode c)
    (taken : targetTaken k c) (checked : k.checks o ≠ []) :
    ∃ effect, ∀ s, k.owner o s = rangeChecked (k.checks o) s effect := by
  cases k
  case setLoop =>
    obtain ⟨chans, named⟩ := targetChannels_named taken
    exact ⟨_, fun s => ownSetLoop_eq s (target ▸ named)⟩
  case setLimits =>
    obtain ⟨chans, named⟩ := targetChannels_named taken
    exact ⟨_, fun s => ownSetLimits_eq s (target ▸ named)⟩
  case setSensor =>
    obtain ⟨targets, named⟩ := targetSensors_named taken
    exact ⟨_, fun s => ownSetSensor_eq s (target ▸ named)⟩
  case setShare => exact ⟨_, fun _ => rfl⟩
  case setReference => exact ⟨_, fun _ => rfl⟩
  case setWatch => exact ⟨_, fun _ => rfl⟩
  case setPosition => exact ⟨_, fun _ => rfl⟩
  case setReport => exact ⟨_, fun _ => rfl⟩
  all_goals exact absurd rfl checked

/-- An owner that does not take the target refuses with detail 0. -/
theorem OrderKind.owner_badTarget {k : OrderKind} {o : Order} {c : Nat} (target : o.target = Target.ofCode c) (field : c < 16)
    (refused : ¬targetTaken k c) (s : State) : k.owner o s = (s, refusedRange 0) := by
  cases k
  case setLoop =>
    have unnamed : targetChannels o.target = none := by
      have out : ¬(9 ≤ c ∧ c ≤ 11) := refused
      rw [target, targetChannels_ofCode field, if_neg (by omega), if_neg (by omega), if_neg (by omega)]
    simp [OrderKind.owner, ownSetLoop, unnamed]
  case setLimits =>
    have unnamed : targetChannels o.target = none := by
      have out : ¬(9 ≤ c ∧ c ≤ 11) := refused
      rw [target, targetChannels_ofCode field, if_neg (by omega), if_neg (by omega), if_neg (by omega)]
    simp [OrderKind.owner, ownSetLimits, unnamed]
  case setSensor =>
    have unnamed : targetSensors o.target = none := by
      have out : ¬c ≤ 8 := refused
      rw [target, targetSensors_ofCode field, dif_neg (by omega), if_neg (by omega)]
    simp [OrderKind.owner, ownSetSensor, unnamed]
  case isolate =>
    have other := ofCode_ne_chan field refused
    show ownIsolate o s = _
    unfold ownIsolate
    rw [target]
    split
    case h_1 ch named => exact absurd named (other ch)
    all_goals rfl
  case restore =>
    have other := ofCode_ne_chan field refused
    show ownRestore o s = _
    unfold ownRestore
    rw [target]
    split
    case h_1 ch named => exact absurd named (other ch)
    all_goals rfl
  case injectLevel =>
    have other := ofCode_ne_sensor field refused
    show ownInjectLevel o s = _
    unfold ownInjectLevel
    rw [target]
    split
    case h_1 n named => exact absurd named (other n)
    all_goals rfl
  all_goals exact absurd trivial refused

/-- The result word of REFUSED_RANGE (9.5). -/
theorem refusedRange_word (d : Nat) : (refusedRange d).word = wordN (0x0300 + d) := by
  simp [OrderResult.word, refusedRange]

/-- Settles O24. -/
theorem targetThenFirstBadParameterRefuses : Obligations.TargetThenFirstBadParameterRefuses := by
  refine ⟨fun k s hr refused => ?_, fun k s i p hr taken check fails passes => ?_⟩
  · exact ⟨_, exec_command k s, takeUp_refused hr (OrderKind.owner_badTarget s.recordOrder_target s.targetCode_lt refused _) rfl⟩
  · rw [hr.checks, List.getElem?_map, Option.map_eq_some_iff] at check
    obtain ⟨b, place, rfl⟩ := check
    obtain rfl : b = false := by simpa using fails
    have checked : k.checks s.recordOrder ≠ [] := fun e => by simp [e] at place
    obtain ⟨effect, answers⟩ := OrderKind.owner_checked s.recordOrder_target taken checked
    have first : firstBad (k.checks s.recordOrder) = some (i + 1) := by
      refine firstBad_eq_some place fun b hb => passes (b = true) ?_
      rw [hr.checks, ← List.map_take]
      exact List.mem_map.2 ⟨b, hb, rfl⟩
    have refusal : k.owner s.recordOrder s.countRecord = (s.countRecord, refusedRange (i + 1)) := by
      rw [answers, rangeChecked, first]
    refine ⟨_, exec_command k s, ?_⟩
    rw [add_assoc, ← refusedRange_word]
    exact takeUp_refused hr refusal rfl

/-! ### Orders that replace values -/

/-- An order whose parameters all lie in range has its effect. -/
theorem State.RecordReady.done {s : State} {k : OrderKind} (hr : s.RecordReady k) {effect : State → State}
    (answers : k.owner s.recordOrder s.countRecord = rangeChecked (k.checks s.recordOrder) s.countRecord effect)
    (passes : ∀ p ∈ s.parameterChecks k, p) : RecordDone k s (effect s.countRecord) (takeUp k k.owner s) := by
  have good : firstBad (k.checks s.recordOrder) = none := firstBad_eq_none_iff.2 fun b hb => by
    refine passes (b = true) ?_
    rw [hr.checks]
    exact List.mem_map.2 ⟨b, hb, rfl⟩
  have acts : k.owner s.recordOrder s.countRecord = (effect s.countRecord, resDone) := by rw [answers, rangeChecked, good]
  refine takeUp_done hr acts ?_
  have cw := k.owner_cw s.recordOrder s.countRecord
  rwa [acts] at cw

/-- Settles O27. -/
theorem scalarOrdersReplaceTheirValues : Obligations.ScalarOrdersReplaceTheirValues := by
  refine ⟨fun s hr passes => ⟨_, exec_command .setShare s, ?_⟩, fun s hr passes => ⟨_, exec_command .setReference s, ?_⟩,
    fun s hr passes => ⟨_, exec_command .setReport s, ?_⟩⟩
  · have done := hr.done (show ownSetShare s.recordOrder s.countRecord = _ from rfl) passes
    rw [hr.par 0 (by decide), hr.par 1 (by decide), hr.par 2 (by decide)] at done
    exact done
  · have done := hr.done (show ownSetReference s.recordOrder s.countRecord = _ from rfl) passes
    rw [hr.par 0 (by decide), hr.par 1 (by decide), hr.par 2 (by decide), hr.par 3 (by decide), hr.par 4 (by decide)] at done
    exact done
  · have done := hr.done (show ownSetReport s.recordOrder s.countRecord = _ from rfl) passes
    rw [hr.par 0 (by decide), hr.par 1 (by decide), hr.par 2 (by decide), hr.par 3 (by decide), hr.par 4 (by decide)] at done
    exact done

/-- Settles O28. -/
theorem watchAndPositionOrdersRestart : Obligations.WatchAndPositionOrdersRestart := by
  refine ⟨fun s hr passes => ⟨_, exec_command .setWatch s, ?_⟩, fun s hr passes => ⟨_, exec_command .setPosition s, ?_⟩⟩
  · have blocks : (fun c : SensorChannel => if c.enabled then c.newBlock else c) = fun c =>
        if c.level = .disabled then c
        else { c with sumSq := 0, peak := 0, count := 0, gapped := false, faultSeen := false } := by
      funext c
      cases level : c.level <;> simp [SensorChannel.enabled, SensorChannel.newBlock, level]
    have done := hr.done (show ownSetWatch s.recordOrder s.countRecord = _ from rfl) passes
    rw [blocks, hr.par 0 (by decide), hr.par 1 (by decide), hr.par 2 (by decide), hr.par 3 (by decide), hr.par 4 (by decide),
      hr.par 5 (by decide), hr.par 6 (by decide), hr.par 7 (by decide), hr.par 8 (by decide)] at done
    exact done
  · have done := hr.done (show ownSetPosition s.recordOrder s.countRecord = _ from rfl) passes
    rw [hr.par 0 (by decide), hr.par 1 (by decide), hr.par 2 (by decide), hr.par 3 (by decide), hr.par 4 (by decide),
      hr.par 5 (by decide), hr.par 6 (by decide)] at done
    exact done

/-- The channels that A, B or PAIR names, with what each marks. -/
theorem State.targetChannels_cases {s : State} (taken : 9 ≤ s.targetCode ∧ s.targetCode ≤ 11) :
    (targetChannels s.recordOrder.target = some [.a] ∧ s.targetCode = 9) ∨
    (targetChannels s.recordOrder.target = some [.b] ∧ s.targetCode = 10) ∨
    (targetChannels s.recordOrder.target = some [.a, .b] ∧ s.targetCode = 11) := by
  rw [s.recordOrder_target, targetChannels_ofCode s.targetCode_lt]
  obtain code | code | code : s.targetCode = 9 ∨ s.targetCode = 10 ∨ s.targetCode = 11 := by omega
  all_goals simp [code]

/-- SET LIMITS on both channels. -/
theorem setLimitsOn_pair (ioc lba lneg : Nat) (s : State) :
    [Chan.a, .b].foldl (setLimitsOn ioc lba lneg) s =
      { s with
        reg := ⟨{ s.reg.a with ioc := ioc }, { s.reg.b with ioc := ioc }⟩
        tru := { s.tru with lba := ⟨lba, lba⟩, lnegCfg := ⟨lneg, lneg⟩ }
        rc := { s.rc with flags := { s.rc.flags with limitsA := true, limitsB := true } } } := rfl

/-- Settles O25: each of the three targets names its channels. -/
theorem loopAndLimitsOrdersActOnTargets : Obligations.LoopAndLimitsOrdersActOnTargets := by
  constructor
  · intro s hr taken vlim onA onB loop
    refine ⟨_, exec_command .setLoop s, ?_⟩
    have passes : ∀ p ∈ s.parameterChecks .setLoop, p := by simp [State.parameterChecks, vlim]
    rcases State.targetChannels_cases taken with ⟨named, code⟩ | ⟨named, code⟩ | ⟨named, code⟩
    all_goals
      have done := hr.done (ownSetLoop_eq _ named) passes
      rw [hr.par 0 (by decide), hr.par 1 (by decide), hr.par 2 (by decide)] at done
      simp only [onA, onB, code, ne_eq, Nat.reduceEqDiff, not_true_eq_false, not_false_eq_true, if_true, if_false, decide_true,
        decide_false, Bool.or_true, Bool.or_false]
      exact done
  · intro s hr taken values pte onA onB
    refine ⟨_, exec_command .setLimits s, ?_⟩
    have passes : ∀ p ∈ s.parameterChecks .setLimits, p := by
      simp [State.parameterChecks, values 0, values 1, values 2, values 3, pte]
    rcases State.targetChannels_cases taken with ⟨named, code⟩ | ⟨named, code⟩ | ⟨named, code⟩
    all_goals
      have done := hr.done (ownSetLimits_eq _ named) passes
      rw [hr.par 0 (by decide), hr.par 1 (by decide), hr.par 2 (by decide), hr.par 3 (by decide), hr.par 4 (by decide)] at done
      simp only [onA, onB, code, ne_eq, Nat.reduceEqDiff, not_true_eq_false, not_false_eq_true, if_true, if_false, decide_true,
        decide_false, Bool.or_true, Bool.or_false]
    · exact done
    · exact done
    · rw [setLimitsOn_pair] at done
      exact done

end Sys2Proof.Machine

/-! The orders that act: what each can be refused with (O23), STOP (O32), ISOLATE and RESTORE (O34), TEST TRIP and INJECT LEVEL (O36). -/

namespace Sys2Proof.Machine

/-! ### The answers of the owners (9.5) -/

/-- An answer is DONE, or a refusal of one of the codes given that leaves the state it was given. -/
def Answers (codes : List Nat) (s : State) (answer : State × OrderResult) : Prop :=
  answer.2 = resDone ∨ (answer.1 = s ∧ answer.2.code ∈ codes ∧ answer.2.detail < 256)

theorem answers_rangeChecked {codes : List Nat} (range : 3 ∈ codes) {checks : List Bool} (few : checks.length < 256) (s : State)
    (effect : State → State) : Answers codes s (rangeChecked checks s effect) := by
  unfold rangeChecked
  split
  case h_1 d bad => exact .inr ⟨rfl, range, (firstBad_le bad).trans_lt few⟩
  case h_2 => exact .inl rfl

theorem answers_refused {codes : List Nat} (s : State) (r : OrderResult) (code : r.code ∈ codes) (detail : r.detail < 256) :
    Answers codes s (s, r) := .inr ⟨rfl, code, detail⟩

theorem answers_state {codes : List Nat} (state : 2 ∈ codes) (s : State) (d : DriveState) : Answers codes s (s, refusedState d.code) :=
  answers_refused s _ state (d.code_lt.trans (by decide))

/-- The index of a bad breakpoint is one of the table's. -/
theorem badPoint_lt {i j : Nat} {prev : Option Nat} {points : List (Nat × Nat)} (bad : badPoint i prev points = some j) :
    j < i + points.length := by
  induction points generalizing i prev with
  | nil => cases bad
  | cons p rest ih =>
    obtain ⟨x, l⟩ := p
    have next : ∀ q, badPoint (i + 1) q rest = some j → j < i + (rest.length + 1) := fun q later => by
      have := ih later
      omega
    have here : some i = some j → j < i + (rest.length + 1) := fun e => by
      cases e
      omega
    simp only [badPoint, List.length_cons] at bad ⊢
    split at bad
    · exact here bad
    split at bad
    · split at bad
      · exact here bad
      · exact next _ bad
    · exact next _ bad

/-- The refusals of R5. -/
theorem State.runRefusal_codes {s : State} {r : OrderResult} (refusal : s.runRefusal = some r) : r.code ∈ [2, 5, 6] ∧ r.detail < 256 := by
  unfold State.runRefusal at refusal
  split at refusal
  · cases refusal
    exact ⟨by simp [refusedState], s.rc.drive.code_lt.trans (by decide)⟩
  split at refusal
  case h_1 n missing =>
    cases refusal
    obtain ⟨flag, found, rfl⟩ := Option.map_eq_some_iff.1 missing
    have listed := List.mem_of_find?_eq_some found
    simp only [RunControl.requiredFlags, List.mem_cons, List.not_mem_nil, or_false] at listed
    have small : flag.1 < 256 := by
      rcases listed with rfl | rfl | rfl | rfl | rfl | rfl <;> exact Nat.lt_of_sub_pos (Nat.succ_pos _)
    exact ⟨by simp [refusedConfig], small⟩
  split at refusal
  case h_1 ch _ =>
    cases refusal
    refine ⟨by simp [refusedLink], ?_⟩
    cases ch <;> decide
  split at refusal
  · cases refusal
    decide
  · cases refusal

/-- Every owner answers DONE, or refuses with a code that its order has. -/
theorem OrderKind.owner_answers (k : OrderKind) (o : Order) {s : State} (window : ∀ n, s.tu.window = some n → n ≤ 23) :
    Answers (refusalCodes k) s (k.owner o s) := by
  cases k
  case setLoop =>
    show Answers _ _ (ownSetLoop o s)
    unfold ownSetLoop
    split
    · exact answers_refused s (refusedRange 0) (by decide) (by decide)
    · exact answers_rangeChecked (by decide) (by simp) _ _
  case setLimits =>
    show Answers _ _ (ownSetLimits o s)
    unfold ownSetLimits
    split
    · exact answers_refused s (refusedRange 0) (by decide) (by decide)
    · exact answers_rangeChecked (by decide) (by simp) _ _
  case loadEnvelope =>
    show Answers _ _ (ownLoadEnvelope o s)
    unfold ownLoadEnvelope
    split
    · exact answers_refused s (refusedTable 8) (by decide) (by decide)
    case isFalse count =>
      dsimp only
      split
      case h_1 i bad =>
        have lt := badPoint_lt bad
        simp only [envelopePoints, List.length_map, List.length_range] at lt
        rw [Bool.not_eq_true', Bool.not_eq_false, inRange_iff] at count
        exact answers_refused s (refusedTable i) (by simp [refusedTable, refusalCodes]) (show i < 256 by omega)
      case h_2 => exact .inl rfl
  case setShare => exact answers_rangeChecked (by decide) (by simp) _ _
  case setReference => exact answers_rangeChecked (by decide) (by simp) _ _
  case setSensor =>
    show Answers _ _ (ownSetSensor o s)
    unfold ownSetSensor
    split
    · exact answers_refused s (refusedRange 0) (by decide) (by decide)
    · exact answers_rangeChecked (by decide) (by simp) _ _
  case setWatch => exact answers_rangeChecked (by decide) (by simp) _ _
  case setPosition => exact answers_rangeChecked (by decide) (by simp) _ _
  case setReport => exact answers_rangeChecked (by decide) (by simp) _ _
  case run =>
    show Answers _ _ (ownRun o s)
    unfold ownRun
    split
    case h_1 r refusal => exact .inr ⟨rfl, State.runRefusal_codes refusal⟩
    case h_2 => exact .inl rfl
  case stop =>
    show Answers _ _ (ownStop o s)
    unfold ownStop
    split
    case h_4 => exact answers_state (by decide) s _
    case h_5 => exact answers_state (by decide) s _
    all_goals exact .inl rfl
  case tripReset =>
    show Answers _ _ (ownTripReset o s)
    unfold ownTripReset
    split
    · exact answers_state (by decide) s _
    split
    case h_1 n open' =>
      have := window n open'
      exact answers_refused s (refusedWindow n) (by simp [refusedWindow, refusalCodes]) (show n < 256 by omega)
    split
    case h_1 c active =>
      obtain ⟨cause, -, -, rfl⟩ := State.mem_activeCodes.1 (List.min?_mem active)
      refine answers_refused s (refusedActive cause.code) (by simp [refusedActive, refusalCodes]) (show cause.code < 256 from ?_)
      cases cause <;> exact Nat.lt_of_sub_pos (Nat.succ_pos _)
    case h_2 => exact .inl rfl
  case isolate =>
    show Answers _ _ (ownIsolate o s)
    unfold ownIsolate
    split
    case h_1 =>
      split
      · exact answers_state (by decide) s _
      split
      · exact answers_refused s (refusedState 7) (by decide) (by decide)
      split <;> exact .inl rfl
    all_goals exact answers_refused s (refusedRange 0) (by decide) (by decide)
  case restore =>
    show Answers _ _ (ownRestore o s)
    unfold ownRestore
    split
    case h_1 =>
      split
      · exact answers_state (by decide) s _
      split <;> exact .inl rfl
    all_goals exact answers_refused s (refusedRange 0) (by decide) (by decide)
  case clearDerate =>
    show Answers _ _ (ownClearDerate o s)
    unfold ownClearDerate
    split
    · exact .inl rfl
    split
    · exact answers_refused s (refusedActive 8) (by decide) (by decide)
    split
    case h_1 i _ => exact answers_refused s (refusedActive i.val) (by simp [refusedActive, refusalCodes]) (show i.val < 256 by omega)
    case h_2 => exact .inl rfl
  case testTrip =>
    show Answers _ _ (ownTestTrip o s)
    unfold ownTestTrip
    split
    · exact .inl rfl
    · exact answers_state (by decide) s _
  case injectLevel =>
    show Answers _ _ (ownInjectLevel o s)
    unfold ownInjectLevel
    split
    case h_1 =>
      split
      · exact answers_state (by decide) s _
      split
      · exact answers_refused s (refusedState 8) (by decide) (by decide)
      · exact answers_rangeChecked (by decide) (by simp) _ _
    all_goals exact answers_refused s (refusedRange 0) (by decide) (by decide)
  case transferCounts => exact .inl rfl

/-- No order is refused with the code of DONE. -/
theorem one_not_mem_refusalCodes (k : OrderKind) : 1 ∉ refusalCodes k := by cases k <;> decide

/-- Settles O23. -/
theorem refusedOrderChangesNothingElse : Obligations.RefusedOrderChangesNothingElse := by
  intro k s hr window
  refine ⟨_, exec_command k s, ?_⟩
  have acts : k.owner s.recordOrder s.countRecord =
    ((k.owner s.recordOrder s.countRecord).1, (k.owner s.recordOrder s.countRecord).2) := rfl
  rcases k.owner_answers s.recordOrder (s := s.countRecord) window with done | ⟨same, code, detail⟩
  · rw [done] at acts
    obtain ⟨words, -⟩ := takeUp_done hr acts (k.owner_cw _ _)
    obtain ⟨-, -, -, fits, -, -⟩ := hr
    have := k.two_le_length
    rw [words _ (by unfold Config.xmWords; omega), if_pos rfl]
    exact .inl rfl
  · rw [same] at acts
    refine .inr ⟨_, code, _, detail, takeUp_refused hr acts ?_⟩
    exact beq_eq_false_iff_ne.2 fun one => one_not_mem_refusalCodes k (one ▸ code)

/-! ### STOP (R9, R10) -/

theorem State.notify_state (s : State) : s.notify .state = { s with rn := { s.rn with notice := s.rn.notice ||| 0x200#10 } } := rfl

/-- STARTING or RUNNING, with the stop-hold timer stopped, to STOPPING. -/
theorem State.enterStopping_eq {s : State} (stopped : s.rc.stopHold = none) :
    s.enterStopping =
      { s with
        rc := { s.rc with
          drive := .stopping
          breakAway := none
          stopHold := if s.tru.tcmd = 0 ∧ s.pt.speed.natAbs ≤ s.rc.creep then some (s.now + s.rc.stopHoldTime * 1000) else none }
        rn := { s.rn with notice := s.rn.notice ||| 0x200#10 } } := by
  simp [State.enterStopping, State.notify_state, State.evalStopHold, State.holdCondition, PositionTracker.speedMag, stopped]

/-- Settles O32. -/
theorem stopByDriveState : Obligations.StopByDriveState := by
  intro s hr
  refine ⟨_, exec_command .stop s, fun live stopped => ?_, fun stopping => ?_, fun rests => ?_⟩
  · have acts : ownStop s.recordOrder s.countRecord = (s.countRecord.enterStopping, resDone) := by
      have drive : s.countRecord.rc.drive = s.rc.drive := rfl
      unfold ownStop
      rcases live with starting | running
      · rw [drive, starting]
      · rw [drive, running]
    rw [State.enterStopping_eq (s := s.countRecord) stopped] at acts
    have done := takeUp_done hr acts rfl
    exact done
  · have acts : ownStop s.recordOrder s.countRecord = (s.countRecord, resDone) := by
      have drive : s.countRecord.rc.drive = s.rc.drive := rfl
      rw [ownStop, drive, stopping]
    have done := takeUp_done hr acts rfl
    exact done
  · have acts : ownStop s.recordOrder s.countRecord = (s.countRecord, refusedState s.rc.drive.code) := by
      have drive : s.countRecord.rc.drive = s.rc.drive := rfl
      unfold ownStop
      rcases rests with stopped | tripped
      · rw [drive, stopped]
      · rw [drive, tripped]
    rw [← refusedState_word]
    exact takeUp_refused hr acts rfl

/-! ### ISOLATE and RESTORE (R13, R15, R16) -/

/-- Settles O34. -/
theorem isolateAndRestoreSetTheFlag : Obligations.IsolateAndRestoreSetTheFlag := by
  intro s ch code changed
  have target : s.recordOrder.target = .chan ch := by rw [s.recordOrder_target, code, ofCode_chan]
  have moved : ∀ flag, (s.countRecord.setIsolation ch flag) = { changed flag with cw := s.countRecord.cw } := fun flag => by
    cases ch with
    | a =>
      have doubts : (s.pt.tracking == Tracking.tracking) = decide (s.pt.tracking = .tracking) := by cases s.pt.tracking <;> rfl
      show State.mk .. = State.mk ..
      simp [changed, State.countRecord, PositionTracker.switchSource, PositionTracker.doubt, doubts]
    | b => rfl
  constructor
  · intro hr
    refine ⟨_, exec_command .isolate s, fun drive => ?_, fun stopped other => ?_, fun stopped other => ?_⟩
    · have acts : ownIsolate s.recordOrder s.countRecord = (s.countRecord, refusedState s.rc.drive.code) := by
        rw [ownIsolate, target]
        exact if_pos drive
      rw [← refusedState_word]
      exact takeUp_refused hr acts rfl
    · have acts : ownIsolate s.recordOrder s.countRecord = (s.countRecord, refusedState 7) := by
        simp [ownIsolate, target, stopped, other]
      exact takeUp_refused hr acts rfl
    · by_cases isolated : s.rc.isolated.get ch = true
      · have acts : ownIsolate s.recordOrder s.countRecord = (s.countRecord, resDone) := by
          simp [ownIsolate, target, stopped, other, isolated]
        have done := takeUp_done hr acts rfl
        rw [if_pos isolated]
        exact done
      · have acts : ownIsolate s.recordOrder s.countRecord = (s.countRecord.setIsolation ch true, resDone) := by
          simp [ownIsolate, target, stopped, other, isolated]
        rw [moved] at acts
        have done := takeUp_done hr acts rfl
        rw [if_neg isolated]
        exact done
  · intro hr
    refine ⟨_, exec_command .restore s, fun drive => ?_, fun stopped => ?_⟩
    · have acts : ownRestore s.recordOrder s.countRecord = (s.countRecord, refusedState s.rc.drive.code) := by
        rw [ownRestore, target]
        exact if_pos drive
      rw [← refusedState_word]
      exact takeUp_refused hr acts rfl
    · by_cases isolated : s.rc.isolated.get ch = true
      · have acts : ownRestore s.recordOrder s.countRecord = (s.countRecord.setIsolation ch false, resDone) := by
          simp [ownRestore, target, stopped, isolated]
        rw [moved] at acts
        have done := takeUp_done hr acts rfl
        rw [if_pos isolated]
        exact done
      · have acts : ownRestore s.recordOrder s.countRecord = (s.countRecord, resDone) := by
          simp [ownRestore, target, stopped, isolated]
        have done := takeUp_done hr acts rfl
        rw [if_neg isolated]
        exact done

/-! ### TEST TRIP and INJECT LEVEL (R137, R125) -/

/-- A first cause reads nothing of the walker and leaves it. -/
theorem State.firstCause_countRecord (s : State) (c : Cause) :
    s.countRecord.firstCause c = { s.firstCause c with cw := s.countRecord.cw } := by
  have h : s.enterTripped.chooseSlot = s.chooseSlot := rfl
  have h' : s.countRecord.enterTripped.chooseSlot = s.chooseSlot := rfl
  have h'' : s.countRecord.chooseSlot = s.chooseSlot := rfl
  unfold State.firstCause State.takeSlot
  simp only [h, h', h'']
  cases s.chooseSlot <;> rfl

/-- Settles O36. -/
theorem testOrdersActInStopped : Obligations.TestOrdersActInStopped := by
  constructor
  · intro s hr
    refine ⟨_, exec_command .testTrip s, fun stopped => ⟨s.firstCause .test, s.firstCause_spec .test, ?_⟩, fun drive => ?_⟩
    · have acts : ownTestTrip s.recordOrder s.countRecord = (s.countRecord.firstCause .test, resDone) := by
        simp [ownTestTrip, State.report, stopped]
      rw [State.firstCause_countRecord] at acts
      have done := takeUp_done hr acts rfl
      exact done
    · have acts : ownTestTrip s.recordOrder s.countRecord = (s.countRecord, refusedState s.rc.drive.code) := if_neg drive
      rw [← refusedState_word]
      exact takeUp_refused hr acts rfl
  · intro s n hr code
    have target : s.recordOrder.target = .sensor n := by rw [s.recordOrder_target, code, ofCode_sensor]
    have value := hr.par 0 (by decide)
    have count := hr.par 1 (by decide)
    have enabled : (s.vw.channels.get n).level ≠ .disabled → ((s.vw.channels.get n).enabled) = true := fun on => by
      simpa [SensorChannel.enabled] using on
    have refuses : ∀ r, ownInjectLevel s.recordOrder s.countRecord = (s.countRecord, r) → r.accepted = false →
        RecordRefused r.word s (takeUp .injectLevel OrderKind.injectLevel.owner s) := fun r acts no => takeUp_refused hr acts no
    refine ⟨_, exec_command .injectLevel s, fun drive => ?_, fun stopped off => ?_, fun stopped on high => ?_,
      fun stopped on low bad => ?_, fun stopped on low good => ?_⟩
    · rw [← refusedState_word]
      refine refuses _ ?_ rfl
      rw [ownInjectLevel, target]
      exact if_pos drive
    · refine refuses (refusedState 8) ?_ rfl
      simp [ownInjectLevel, target, stopped, SensorChannel.enabled, off]
    · refine refuses (refusedRange 1) ?_ rfl
      have out : inRange (s.par 0) 0 32767 = false := by
        rw [Bool.eq_false_iff, ne_eq, inRange_iff]
        omega
      simp [ownInjectLevel, target, stopped, enabled on, value, rangeChecked, out, firstBad]
    · refine refuses (refusedRange 2) ?_ rfl
      have inside : inRange (s.par 0) 0 32767 = true := (inRange_iff _ _ _).2 ⟨Nat.zero_le _, low⟩
      have out : inRange (s.par 1) 1 255 = false := by
        rw [Bool.eq_false_iff, ne_eq, inRange_iff]
        exact bad
      simp [ownInjectLevel, target, stopped, enabled on, value, count, rangeChecked, inside, out, firstBad]
    · have inside : inRange (s.par 0) 0 32767 = true := (inRange_iff _ _ _).2 ⟨Nat.zero_le _, low⟩
      have counted : inRange (s.par 1) 1 255 = true := (inRange_iff _ _ _).2 good
      have acts : ownInjectLevel s.recordOrder s.countRecord =
          ({ s.countRecord with vw := { s.vw with
            channels := s.vw.channels.set n { s.vw.channels.get n with injection := some ⟨s.par 0, s.par 1⟩ } } }, resDone) := by
        simp [ownInjectLevel, target, stopped, enabled on, value, count, rangeChecked, inside, counted, firstBad]
      have done := takeUp_done hr acts rfl
      exact done

end Sys2Proof.Machine

/-! Transfers and report requests (O37), the timers and the speed of run control (O38, O39), pulses and markers (O40, O41). -/

namespace Sys2Proof.Machine

/-! ### Transfers and reports (R175 to R179) -/

/-- A taken value added to a transferred count (R178). -/
theorem Counter.merge_eq (held live : Counter) :
    held.merge live = ⟨min (held.count + live.count) 65535, held.sat || live.sat || decide (65535 ≤ held.count + live.count)⟩ := by
  exact congrArg (Counter.mk _) (Bool.or_right_comm _ _ _)

/-- A transfer leaves what R178 says. -/
theorem State.transfer_spec (s : State) : TransferLeaves s s.transfer := by
  refine ⟨rfl, ?_⟩
  cases taken : s.rn.taken <;> simp [State.transfer, State.liveCounts, Counts.merge, Counts.toList, Counter.merge_eq, taken]

/-- A report request reads and leaves nothing of the walker. -/
theorem State.requestReport_cw (s : State) (w : Walker) :
    State.requestReport { s with cw := w } = { s.requestReport with cw := w } := by
  unfold State.requestReport
  dsimp only
  cases s.rn.inFlight <;> rfl

/-- Settles O37. -/
theorem transfersAndReportRequests : Obligations.TransfersAndReportRequests := by
  constructor
  · intro s hr
    refine ⟨_, s.transfer, s.transfer.requestReport, exec_command .transferCounts s, s.transfer_spec,
      s.transfer.requestReport_spec, ?_⟩
    have acts : ownTransferCounts s.recordOrder s.countRecord =
        ({ s.transfer.requestReport with cw := s.countRecord.cw }, resDone) := by
      rw [← State.requestReport_cw]
      rfl
    have done := takeUp_done hr acts rfl
    exact done
  · intro s due running r
    have expires : s.reportExpires = (if r.rn.manual then r else r.transfer).requestReport := by
      unfold State.reportExpires
      rw [running]
      rfl
    refine ⟨_, rfl, fun manual => ?_, fun auto => ?_⟩
    · rw [expires, if_pos manual]
      exact r.requestReport_spec
    · rw [expires, if_neg (by simp [r, auto])]
      exact ⟨r.transfer, r.transfer_spec, r.transfer.requestReport_spec⟩

/-! ### Run control's timers and the speed (R7, R8, R10, R95) -/

/-- Settles O38. -/
theorem runControlTimersExpire : Obligations.RunControlTimersExpire := by
  refine ⟨fun s due running starting => ⟨_, rfl, ?_⟩, fun s due running stopping => ?_⟩
  · have expires : s.breakAwayExpires = (s.breakAwayDue due).firstCause .stall := by
      have reports : ((s.breakAwayDue due).rc.drive == .starting) = true := beq_iff_eq.2 starting
      unfold State.breakAwayExpires
      rw [running]
      refine (if_pos reports).trans (if_neg ?_)
      simp [starting]
    rw [expires]
    exact State.firstCause_spec _ _
  · show Host.Outcome.next s.stopHoldExpires = _
    unfold State.stopHoldExpires
    rw [running]
    exact congrArg Host.Outcome.next (if_pos stopping)

/-- Settles O39: the speed, and then RC's use of it by the drive state. -/
theorem speedWindowMeasuresAndInforms : Obligations.SpeedWindowMeasuresAndInforms := by
  intro s due running now speed moving
  have measured : speedOf s.pt.nw s.pt.kspd = speed := clamp_eq (by norm_num)
  show Host.Outcome.next s.speedWindow = _
  unfold State.speedWindow
  rw [running]
  dsimp only
  rw [show (s.reach due).pt = s.pt from rfl, measured]
  unfold State.useSpeed
  dsimp only
  refine congrArg Host.Outcome.next ?_
  split
  case h_1 starting =>
    have drive : s.rc.drive = .starting := starting
    by_cases fast : s.rc.creep ≤ speed.natAbs
    · simp [drive, fast, moving, PositionTracker.speedMag, State.enterRunning, State.notify_state, State.reach, now]
    · simp [drive, fast, moving, PositionTracker.speedMag, State.reach, now]
  case h_2 stopping =>
    have drive : s.rc.drive = .stopping := stopping
    by_cases rests : s.tru.tcmd = 0 ∧ speed.natAbs ≤ s.rc.creep
    · cases timer : s.rc.stopHold <;>
        simp [drive, moving, State.evalStopHold, State.holdCondition, PositionTracker.speedMag, State.reach, now, rests, timer]
    · rcases not_and_or.1 rests with turning | fast
      · simp [drive, moving, State.evalStopHold, State.holdCondition, PositionTracker.speedMag, State.reach, now, turning]
      · simp [drive, moving, State.evalStopHold, State.holdCondition, PositionTracker.speedMag, State.reach, now, fast]
  all_goals
    rename_i rests
    have drive : s.rc.drive = _ := rests
    simp [drive, moving, State.reach, now]

/-! ### Pulses and markers (R80 to R84) -/

theorem sat32_eq (i : Int) : sat32 i = max (-2147483648) (min 2147483647 i) := clamp_eq (by norm_num)

theorem doubts_iff (t : Tracking) : (t == .tracking) = decide (t = .tracking) := by cases t <;> rfl

/-- The combinations of a cycle of four: one step back, and two, are neither the one before nor each other. -/
theorem combination_steps (k : Fin 4) :
    k - 1 ≠ k + 1 ∧ k - 1 + 1 = k ∧ k + 2 ≠ k + 1 ∧ k + 2 + 1 ≠ k ∧ k + 2 ≠ k := by revert k; decide

/-- Settles O40: one clause for each way the combination can move. -/
theorem quadratureCountsTheSource : Obligations.QuadratureCountsTheSource := by
  have counts : ∀ (s : State) (k : Fin 4), s.startUp = .ready →
      exec (.quadratureChange s.pt.source k) s = .next { s with pt := s.pt.quadrature k s.now } := fun s k ready =>
    congrArg Host.Outcome.next (if_pos ⟨ready, rfl⟩)
  refine ⟨?_, ?_, ?_, ?_, ?_⟩
  · intro s ch k other
    exact congrArg Host.Outcome.next (if_neg fun h => other h.2)
  · intro s k ready first
    rw [counts s k ready, PositionTracker.quadrature, first]
  · intro s k ready last pc moved
    have pulse : PositionTracker.pulse { s.pt with lastComb := some (k + 1) } true = moved := by
      by_cases wraps : s.pt.pc + 1 = s.pt.p <;>
        cases forward : s.pt.forward <;> simp [PositionTracker.pulse, moved, pc, wraps, forward, sat32_eq]
    have turned : s.pt.quadrature (k + 1) s.now = moved.missedMarker s.now := by
      rw [PositionTracker.quadrature, last, ← pulse]
      dsimp only
      rw [if_pos rfl]
    refine ⟨_, counts s (k + 1) ready, rfl, fun inside => ?_, fun missed => ?_⟩
    · rw [turned]
      exact if_neg inside
    · rw [turned, PositionTracker.missedMarker, if_pos missed]
      exact PositionTracker.boundary_spec _ _ _ _
  · intro s k ready last pc
    obtain ⟨notForward, back, -⟩ := combination_steps k
    have turned : s.pt.quadrature (k - 1) s.now = PositionTracker.pulse { s.pt with lastComb := some (k - 1) } false := by
      rw [PositionTracker.quadrature, last]
      dsimp only
      rw [if_neg notForward, if_pos back]
    rw [counts s (k - 1) ready, turned]
    by_cases wraps : s.pt.pc = 0 <;>
      simp [PositionTracker.pulse, pc, wraps, sat32_eq, Int.sub_eq_add_neg]
  · intro s k ready last
    obtain ⟨-, -, notForward, notBack, notSame⟩ := combination_steps k
    have turned : s.pt.quadrature (k + 2) s.now = PositionTracker.doubt { s.pt with lastComb := some (k + 2) } := by
      rw [PositionTracker.quadrature, last]
      dsimp only
      rw [if_neg notForward, if_neg notBack, if_neg notSame]
    rw [counts s (k + 2) ready, turned]
    simp [PositionTracker.doubt, doubts_iff]

/-- Settles O41. -/
theorem markerIsARevolutionBoundary : Obligations.MarkerIsARevolutionBoundary := by
  intro s ready tol pc inside
  have window : s.pt.inWindow = true ↔ inside := by
    simp only [PositionTracker.inWindow, inside, Bool.or_eq_true, decide_eq_true_eq]
    omega
  refine ⟨_, if s.pt.inWindow then s.pt.boundary .inWindow .tracking s.now else s.pt.boundary .outOfWindow .uncertain s.now,
    congrArg Host.Outcome.next (if_pos ready), fun within => ?_, fun without => ?_, rfl⟩
  · rw [if_pos (window.2 within)]
    exact PositionTracker.boundary_spec _ _ _ _
  · rw [if_neg (mt window.1 without)]
    exact PositionTracker.boundary_spec _ _ _ _

end Sys2Proof.Machine

/-! The converter links: discards (O45), accepted frames and their causes (O46, O47), the lines (O48), breaks and losses (O49), and the
external trip input (O50). -/

namespace Sys2Proof.Machine

/-! ### The check of a frame (R65, R100) -/

/-- A frame of another length, with a framing error or with a wrong check fails tests 1 and 2. -/
theorem checkedFrame_eq_none {n : Nat} {frame : List RxByte} (two : 2 ≤ n)
    (bad : frame.length ≠ n ∨ (∃ b ∈ frame, b.framingError = true) ∨
      crc16 ((frame.map (·.data)).take (n - 2)) ≠ (frame.map (·.data)).getD (n - 2) 0 ++ (frame.map (·.data)).getD (n - 1) 0) :
    checkedFrame n frame = none := by
  unfold checkedFrame
  split
  case isTrue shape =>
    obtain ⟨length, clean⟩ := shape
    refine if_neg ?_
    rw [beWord_eq, show n - 2 + 1 = n - 1 by omega]
    rcases bad with short | ⟨b, member, framing⟩ | check
    · exact absurd length short
    · simpa [framing] using List.all_eq_true.1 clean b member
    · exact check
  case isFalse => rfl

/-- The frame of some bytes with their check, as the receiver has it. -/
theorem goodFrame_ne_nil (body : List Byte) : goodFrame body ≠ [] := by simp [goodFrame]

/-- The bytes of a measure frame with their check. -/
def measureBytes (q st il ih al ah : Byte) : List Byte :=
  [q, st, il, ih, al, ah, (crc16 [q, st, il, ih, al, ah]).extractLsb' 8 8, (crc16 [q, st, il, ih, al, ah]).extractLsb' 0 8]

theorem checkedFrame_measure (q st il ih al ah : Byte) :
    checkedFrame 8 (goodFrame [q, st, il, ih, al, ah]) = some (measureBytes q st il ih al ah) :=
  checkedFrame_goodFrame [q, st, il, ih, al, ah]

/-- The fields of a measure frame (R63). -/
theorem decodeMeasure_eq (q st il ih al ah : Byte) :
    decodeMeasure (measureBytes q st il ih al ah) =
      { seq := q.toNat, ready := st.getLsbD 0, fault := st.getLsbD 1, imeas := (ih ++ il).toInt
        iavail := min (ah ++ al).toNat 32767 } := by
  unfold decodeMeasure
  rw [leSigned_eq, leValue_eq]
  rfl

theorem State.modLink_eq (s : State) (ch : Chan) (f : Link → Link) : s.modLink ch f = { s with link := s.link.set ch (f (s.link.get ch)) } :=
  rfl

/-- Settles O45. -/
theorem linkDiscardsBadAndRepeatedFrames : Obligations.LinkDiscardsBadAndRepeatedFrames := by
  refine ⟨fun s ch frame synced bytes bad => ?_, fun s ch q st il ih al ah synced repeats => ?_⟩
  · show Host.Outcome.next (s.linkFrame ch frame) = _
    unfold State.linkFrame
    rw [if_neg (by simp [synced, bytes]), checkedFrame_eq_none (by decide) bad]
    rfl
  · show Host.Outcome.next (s.linkFrame ch _) = _
    unfold State.linkFrame
    rw [if_neg (by simp [synced, goodFrame_ne_nil]), checkedFrame_measure]
    exact congrArg Host.Outcome.next (if_pos repeats)

/-- A good frame with a new sequence is accepted. -/
theorem State.linkFrame_accepted {s : State} {ch : Chan} {q : Byte} (st il ih al ah : Byte) (synced : (s.link.get ch).synced = true)
    (new : (s.link.get ch).lastSeq ≠ some q.toNat) :
    s.linkFrame ch (goodFrame [q, st, il, ih, al, ah]) = s.acceptMeasure ch (decodeMeasure (measureBytes q st il ih al ah)) := by
  unfold State.linkFrame
  rw [if_neg (by simp [synced, goodFrame_ne_nil]), checkedFrame_measure]
  exact if_neg new

/-! ### The regulator at an arrival (R46 to R51) -/

/-- The computation of an ACTIVE regulator (R48 to R50). -/
theorem Regulator.answered_eq (r : Regulator) (e : Int) :
    r.answered e = { r with acc := r.integrate e, lastVcmd := r.voltage e } := by
  have acc : r.integrate e =
      if ((r.vlim : Int) ≤ ((r.kp : Int) * e + 128) / 256 + (r.acc + 32768) / 65536 ∧ 0 < e) ∨
          (((r.kp : Int) * e + 128) / 256 + (r.acc + 32768) / 65536 ≤ -(r.vlim : Int) ∧ e < 0) then r.acc
      else max (-(r.vlim : Int) * 65536) (min ((r.vlim : Int) * 65536) (r.acc + (r.ki : Int) * e)) := by
    unfold Regulator.integrate Regulator.proportional integralTerm
    dsimp only
    rw [clamp_eq (by omega)]
  unfold Regulator.answered Regulator.voltage
  rw [clamp_eq (by omega), acc]
  rfl

theorem Regulator.arrival_overcurrent {r : Regulator} {imeas : Int} (high : r.ioc < imeas.natAbs) (iref : Int) :
    r.arrival iref imeas = ({ r with lastVcmd := 0 }, blockCommand) := by
  unfold Regulator.arrival Regulator.overcurrent
  rw [if_pos (decide_eq_true high)]

theorem Regulator.arrival_within {r : Regulator} {imeas : Int} (within : ¬r.ioc < imeas.natAbs) (iref : Int) :
    r.arrival iref imeas =
      if r.active then (r.answered (iref - imeas), ⟨true, (r.answered (iref - imeas)).lastVcmd⟩) else (r, blockCommand) := by
  unfold Regulator.arrival Regulator.overcurrent
  rw [if_neg (by simpa using within), Regulator.answered_eq]

/-- An accepted frame, regulated and answered. -/
theorem State.regulated_eq (s : State) (ch : Chan) (f : MeasureFrame) :
    s.regulated ch f =
      { s with
        link := s.link.set ch (((s.link.get ch).accept f (s.now + s.tloss)).handOver
          ((s.reg.get ch).arrival (s.tru.iref.get ch) f.imeas).2 s.now)
        reg := s.reg.set ch ((s.reg.get ch).arrival (s.tru.iref.get ch) f.imeas).1
        rn := if (s.link.get ch).rises then { s.rn with notice := s.rn.notice ||| 0x100#10 } else s.rn } := by
  unfold State.regulated State.notifyIf
  cases (s.link.get ch).rises <;> cases ch <;> rfl

theorem Link.rises_iff (l : Link) : l.rises = true ↔ l.rx ≠ .up ∧ 3 ≤ l.goodRun := by
  simp only [Link.rises, Bool.and_eq_true, bne_iff_ne, beq_iff_eq]
  refine and_congr_right fun _ => ?_
  omega

/-- The port at an acceptance (R65, R66). -/
theorem Link.accept_eq (l : Link) (now tloss : Nat) (q st : Byte) (imeas : Int) (iavail : Nat)
    (byte : ∀ p, l.lastSeq = some p → p ≤ 255) :
    l.accept { seq := q.toNat, ready := st.getLsbD 0, fault := st.getLsbD 1, imeas := imeas, iavail := iavail } (now + tloss) =
      l.accepted now tloss q st imeas iavail := by
  have missed : l.missed.add (missedBetween l.lastSeq q.toNat) =
      l.missed.plus (match l.lastSeq with | some p => (((q.toNat : Int) - p - 1) % 256).toNat | none => 0) := by
    rw [Counter.add_eq_plus]
    cases last : l.lastSeq with
    | none => rfl
    | some p => rw [missedBetween_some p _ (byte p last) (Nat.le_of_lt_succ q.isLt)]
  have rx : (if l.rises then RxState.up else l.rx) = if l.rx ≠ .up ∧ 3 ≤ l.goodRun then .up else l.rx :=
    if_congr l.rises_iff rfl rfl
  unfold Link.accept Link.accepted
  rw [missed, rx]
  rfl

/-! ### Accepted frames and their causes (R46, R47, R63 to R71) -/

/-- The fields of a measure frame by its bytes (R63). -/
def measureOf (q st il ih al ah : Byte) : MeasureFrame :=
  { seq := q.toNat, ready := st.getLsbD 0, fault := st.getLsbD 1, imeas := (ih ++ il).toInt, iavail := min (ah ++ al).toNat 32767 }

/-- A newly set FAULT flag on a channel in service (R70). -/
abbrev State.NewFault (s : State) (ch : Chan) (st : Byte) : Prop :=
  s.rc.isolated.get ch = false ∧ st.getLsbD 1 = true ∧ (s.link.get ch).fault = false

/-- A READY flag that falls on a channel in service while the drive is live (R71). -/
abbrev State.LostReady (s : State) (ch : Chan) (st : Byte) : Prop :=
  s.rc.isolated.get ch = false ∧ s.rc.drive.live = true ∧ st.getLsbD 0 = false ∧ (s.link.get ch).ready = true

/-- A good frame with a new sequence is accepted and regulated, and reports its causes in order. -/
theorem State.linkFrame_measure {s : State} {ch : Chan} {q : Byte} (st il ih al ah : Byte) (synced : (s.link.get ch).synced = true)
    (new : (s.link.get ch).lastSeq ≠ some q.toNat) :
    s.linkFrame ch (goodFrame [q, st, il, ih, al, ah]) =
      (((s.regulated ch (measureOf q st il ih al ah)).reportIf (decide ((s.reg.get ch).ioc < ((ih ++ il).toInt).natAbs))
        (.overcurrent ch)).reportIf (decide (s.NewFault ch st)) (.converterFault ch .fault)).reportIf
        (decide (s.LostReady ch st)) (.converterFault ch .readyLost) := by
  have fault : (!s.rc.isolated.get ch && st.getLsbD 1 && !(s.link.get ch).fault) = decide (s.NewFault ch st) := by
    rw [Bool.eq_iff_iff, decide_eq_true_eq]
    simp only [Bool.and_eq_true, Bool.not_eq_true', and_assoc]
  have lost : (!s.rc.isolated.get ch && s.rc.drive.live && !st.getLsbD 0 && (s.link.get ch).ready) = decide (s.LostReady ch st) := by
    rw [Bool.eq_iff_iff, decide_eq_true_eq]
    simp only [Bool.and_eq_true, Bool.not_eq_true', and_assoc]
  rw [State.linkFrame_accepted st il ih al ah synced new, State.acceptMeasure_eq, decodeMeasure_eq, ← fault, ← lost]
  rfl

/-- The frame handed over at an arrival (R47, R50, R51). -/
theorem Regulator.arrival_command (r : Regulator) (iref imeas : Int) :
    (r.arrival iref imeas).2 =
      if ¬r.ioc < imeas.natAbs ∧ r.active = true then ⟨true, (r.answered (iref - imeas)).lastVcmd⟩ else ⟨false, 0⟩ := by
  by_cases high : r.ioc < imeas.natAbs
  · rw [Regulator.arrival_overcurrent high, if_neg (fun h => h.1 high)]
    rfl
  · rw [Regulator.arrival_within high]
    cases active : r.active
    · simp [blockCommand]
    · simp [high]

/-- The regulators behind an arrival (R47, R50). -/
theorem State.arrival_reg (s : State) (ch : Chan) (imeas : Int) :
    s.reg.set ch ((s.reg.get ch).arrival (s.tru.iref.get ch) imeas).1 =
      if (s.reg.get ch).ioc < imeas.natAbs then s.reg.set ch { s.reg.get ch with lastVcmd := 0 }
      else if (s.reg.get ch).active then s.reg.set ch ((s.reg.get ch).answered (s.tru.iref.get ch - imeas)) else s.reg := by
  split
  case isTrue high => rw [Regulator.arrival_overcurrent high]
  case isFalse within =>
    rw [Regulator.arrival_within within]
    split
    · rfl
    · exact s.reg.set_get ch

/-- What an accepted frame leaves before its causes are reported. -/
theorem State.regulated_spec {s : State} {ch : Chan} {q : Byte} (st il ih al ah : Byte)
    (byte : ∀ p, (s.link.get ch).lastSeq = some p → p ≤ 255) :
    let r := s.reg.get ch
    let imeas := (ih ++ il).toInt
    ∃ handed,
      FrameHanded (if ¬r.ioc < imeas.natAbs ∧ r.active = true then ⟨true, (r.answered (s.tru.iref.get ch - imeas)).lastVcmd⟩ else ⟨false, 0⟩)
        ((s.link.get ch).accepted s.now s.tloss q st imeas (min (ah ++ al).toNat 32767)) handed s.now ∧
      s.regulated ch (measureOf q st il ih al ah) = { s with
        link := s.link.set ch handed
        reg := if r.ioc < imeas.natAbs then s.reg.set ch { r with lastVcmd := 0 }
          else if r.active then s.reg.set ch (r.answered (s.tru.iref.get ch - imeas)) else s.reg
        rn := if (s.link.get ch).rx ≠ .up ∧ 3 ≤ (s.link.get ch).goodRun then { s.rn with notice := s.rn.notice ||| 0x100#10 }
          else s.rn } := by
  intro r imeas
  refine ⟨_, Link.handOver_spec _ _ _, ?_⟩
  have rn : (if (s.link.get ch).rises then { s.rn with notice := s.rn.notice ||| 0x100#10 } else s.rn) =
      if (s.link.get ch).rx ≠ .up ∧ 3 ≤ (s.link.get ch).goodRun then { s.rn with notice := s.rn.notice ||| 0x100#10 } else s.rn :=
    if_congr (Link.rises_iff _) rfl rfl
  rw [State.regulated_eq, rn, measureOf, Link.accept_eq _ _ _ _ _ _ _ byte, State.arrival_reg, Regulator.arrival_command]

/-- Settles O46. -/
theorem acceptedFrameIsRegulated : Obligations.AcceptedFrameIsRegulated := by
  intro s ch q st il ih al ah l r imeas synced new byte within calm rises answered
  have current : ¬r.ioc < imeas.natAbs := not_lt.2 within
  have faults : ¬s.NewFault ch st := fun ⟨service, set, clear⟩ => by
    rcases calm with isolated | ⟨unset | held, -⟩
    · simp [isolated] at service
    · rw [unset] at set
      cases set
    · exact absurd (held.symm.trans clear) (by decide)
  have falls : ¬s.LostReady ch st := fun ⟨service, live, fell, was⟩ => by
    rcases calm with isolated | ⟨-, rests | stands | down⟩
    · simp [isolated] at service
    · exact absurd (rests.symm.trans live) (by decide)
    · rw [stands] at fell
      cases fell
    · exact absurd (down.symm.trans was) (by decide)
  have quiet := State.linkFrame_measure st il ih al ah synced new
  rw [decide_eq_false current, decide_eq_false faults, decide_eq_false falls] at quiet
  obtain ⟨handed, frame, arrived⟩ := State.regulated_spec (q := q) st il ih al ah byte
  have link : (s.regulated ch (measureOf q st il ih al ah)).link.get ch = handed := by
    rw [arrived]
    exact (Pair.get_set _ _ _ _).trans (if_pos rfl)
  refine ⟨_, congrArg Host.Outcome.next quiet, ?_, ?_⟩
  · show FrameHanded _ _ ((s.regulated ch (measureOf q st il ih al ah)).link.get ch) _
    rw [link]
    rw [if_congr (and_iff_right current) rfl rfl] at frame
    exact frame
  · show s.regulated ch (measureOf q st il ih al ah) =
      { s with
        link := s.link.set ch ((s.regulated ch (measureOf q st il ih al ah)).link.get ch)
        reg := if r.active then s.reg.set ch answered else s.reg
        rn := if rises then { s.rn with notice := s.rn.notice ||| 0x100#10 } else s.rn }
    rw [link, arrived, if_neg current]

/-! ### What reports leave of the latched set and the first-out (R129, R132) -/

theorem State.report_drive (s : State) (c : Cause) : (s.report c).rc.drive = .tripped := by
  unfold State.report
  split
  case isTrue tripped => simpa using tripped
  case isFalse => simp

theorem State.mem_report (s : State) (c : Cause) : c ∈ (s.report c).tu.latched := by
  unfold State.report
  split
  · unfold State.furtherCause
    by_cases held : c ∈ s.tu.latched <;> simp [held]
  · simp

/-- A further report keeps the latched causes and the first-out. -/
theorem State.reportIf_of_tripped {s : State} (tripped : s.rc.drive = .tripped) (b : Bool) (c : Cause) :
    (s.reportIf b c).rc.drive = .tripped ∧ (∀ d ∈ s.tu.latched, d ∈ (s.reportIf b c).tu.latched) ∧
      (s.reportIf b c).tu.firstOut = s.tu.firstOut := by
  unfold State.reportIf
  split
  · refine ⟨s.report_drive c, fun d latched => ?_, ?_⟩
    · rw [State.report, if_pos tripped]
      unfold State.furtherCause
      dsimp only
      split
      · exact latched
      · exact List.mem_append_left _ latched
    · rw [State.report, if_pos tripped]
      rfl
  · exact ⟨tripped, fun _ h => h, rfl⟩

/-- A report that is made latches its cause, and makes it the first-out outside TRIPPED. -/
theorem State.reportIf_of_true {s : State} {b : Bool} (made : b = true) (c : Cause) :
    (s.reportIf b c).rc.drive = .tripped ∧ c ∈ (s.reportIf b c).tu.latched ∧
      (s.rc.drive ≠ .tripped → (s.reportIf b c).tu.firstOut = some c) := by
  unfold State.reportIf
  rw [if_pos made]
  refine ⟨s.report_drive c, s.mem_report c, fun first => ?_⟩
  rw [State.report, if_neg first]
  simp

theorem State.reportIf_of_false {s : State} {b : Bool} (unmade : b = false) (c : Cause) : s.reportIf b c = s := by
  rw [State.reportIf, unmade]
  rfl

/-- What a report that is made under a condition leaves: all that its cause leaves, or the state as it was; and of the causes so far,
which of them are latched and which is first-out. -/
structure ReportedIf (p : Prop) (c : Cause) (s t : State) : Prop where
  reported : p → CauseReported c s t
  unreported : ¬p → t = s
  made : p → t.rc.drive = .tripped ∧ c ∈ t.tu.latched ∧ (s.rc.drive ≠ .tripped → t.tu.firstOut = some c)
  kept : s.rc.drive = .tripped → t.rc.drive = .tripped ∧ (∀ d ∈ s.tu.latched, d ∈ t.tu.latched) ∧ t.tu.firstOut = s.tu.firstOut

theorem State.reportIf_spec (s : State) (p : Prop) [Decidable p] (c : Cause) : ReportedIf p c s (s.reportIf (decide p) c) where
  reported holds := by
    rw [State.reportIf, if_pos (decide_eq_true holds)]
    exact s.report_spec c
  unreported fails := State.reportIf_of_false (decide_eq_false fails) c
  made holds := State.reportIf_of_true (decide_eq_true holds) c
  kept tripped := State.reportIf_of_tripped tripped _ c

/-- Settles O47. -/
theorem acceptedFrameReportsItsCauses : Obligations.AcceptedFrameReportsItsCauses := by
  intro s ch q st il ih al ah l high fault lost synced new causes
  have frame := State.linkFrame_measure st il ih al ah synced new
  set arrived := s.regulated ch (measureOf q st il ih al ah) with harrived
  set u := arrived.reportIf (decide high) (.overcurrent ch) with hu
  set v := u.reportIf (decide fault) (.converterFault ch .fault) with hv
  set t := v.reportIf (decide lost) (.converterFault ch .readyLost) with ht
  have drive : arrived.rc.drive = s.rc.drive := by simp [harrived, State.regulated]
  have overcurrent := State.reportIf_spec arrived high (.overcurrent ch)
  have converter := State.reportIf_spec u fault (.converterFault ch .fault)
  have readiness := State.reportIf_spec v lost (.converterFault ch .readyLost)
  rw [← hu] at overcurrent
  rw [← hv] at converter
  rw [← ht] at readiness
  refine ⟨t, congrArg Host.Outcome.next frame, ?_, fun h => ?_, fun h => ?_, fun h => ?_, fun first => ?_, ?_, ?_, ?_, fun byte => ?_⟩
  case refine_1 =>
    rcases causes with h | h | h
    · exact (readiness.kept ((converter.kept (overcurrent.made h).1).1)).1
    · exact (readiness.kept (converter.made h).1).1
    · exact (readiness.made h).1
  case refine_2 =>
    obtain ⟨tripped, latched, -⟩ := overcurrent.made h
    obtain ⟨still, more, -⟩ := converter.kept tripped
    exact (readiness.kept still).2.1 _ (more _ latched)
  case refine_3 =>
    obtain ⟨tripped, latched, -⟩ := converter.made h
    exact (readiness.kept tripped).2.1 _ latched
  case refine_4 => exact (readiness.made h).2.1
  case refine_5 =>
    have arrives : arrived.rc.drive ≠ .tripped := drive.symm ▸ first
    by_cases hi : high
    · obtain ⟨tripped, -, latched⟩ := overcurrent.made hi
      obtain ⟨still, -, same⟩ := converter.kept tripped
      rw [(readiness.kept still).2.2, same, latched arrives, if_pos hi]
    rw [if_neg hi]
    have waits : u.rc.drive ≠ .tripped := by rwa [overcurrent.unreported hi]
    by_cases fa : fault
    · obtain ⟨tripped, -, latched⟩ := converter.made fa
      rw [(readiness.kept tripped).2.2, latched waits, if_pos fa]
    rw [if_neg fa]
    have idle : v.rc.drive ≠ .tripped := by rwa [converter.unreported fa]
    obtain ⟨-, -, latched⟩ := readiness.made ((causes.resolve_left hi).resolve_left fa)
    exact latched idle
  case refine_6 => simp [ht, hv, hu, harrived, State.regulated]
  case refine_7 => simp [ht, hv, hu, harrived, State.regulated]
  case refine_8 => simp [ht, hv, hu, harrived, State.regulated]
  case refine_9 =>
    obtain ⟨handed, given, reached⟩ := State.regulated_spec (q := q) st il ih al ah byte
    rw [← harrived] at reached
    refine ⟨handed, u, v, given, ?_⟩
    rw [← reached]
    exact ⟨overcurrent.reported, overcurrent.unreported, converter.reported, converter.unreported, readiness.reported,
      readiness.unreported⟩

/-! ### The lines (R60, R62, R68, R73, R74) -/

/-- Settles O48. -/
theorem linesSynchroniseClearAndSend : Obligations.LinesSynchroniseClearAndSend := by
  refine ⟨fun s ch ready free => ?_, fun s ready => ?_, fun s ch => rfl, fun s ch f sending => ?_, Command.bytes_spec, crc16_spec⟩
  · show Host.Outcome.next (s.synchronise (.link ch)) = _
    unfold State.synchronise
    rw [if_neg (not_not.2 ready)]
    dsimp only
    rw [if_neg (by simp [free])]
    rfl
  · show Host.Outcome.next (s.synchronise .sensor) = _
    unfold State.synchronise
    rw [if_neg (not_not.2 ready)]
  · show Host.Outcome.next (s.transmitCompletes ch) = _
    unfold State.transmitCompletes
    rw [sending]
    dsimp only
    rw [State.modLink_eq]
    unfold Link.transmitDone Link.startFrame State.reach
    dsimp only
    cases holding : (s.link.get ch).holding with
    | none => rfl
    | some c =>
      dsimp only
      rw [Command.bytes_spec]
      rfl

/-- Settles O49. -/
theorem breakAndLossAreReported : Obligations.BreakAndLossAreReported := by
  constructor
  · intro s ch synced u
    have broken : s.breakDetected ch = u.reportIf (!s.rc.isolated.get ch) (.converterFault ch .lineBreak) := if_pos synced
    refine ⟨_, congrArg Host.Outcome.next broken, fun service => ?_, fun isolated => ?_⟩
    · rw [service]
      exact u.report_spec _
    · rw [isolated]
      rfl
  · intro s ch due timer quiet lost
    have expired : s.linkLossExpires ch =
        if (s.link.get ch).rx = .up then lost.reportIf (!s.rc.isolated.get ch) (.linkLoss ch)
        else { s with now := max s.now due, link := s.link.set ch quiet } := by
      unfold State.linkLossExpires
      rw [timer]
      cases ch <;> rfl
    refine ⟨_, congrArg Host.Outcome.next expired, fun up service => ?_, fun up isolated => ?_, fun down => if_neg down⟩
    · rw [if_pos up, service]
      exact lost.report_spec _
    · rw [if_pos up, isolated]
      rfl

/-! ### The external trip input (R135) -/

/-- Settles O50. -/
theorem externalTripIsFiltered : Obligations.ExternalTripIsFiltered := by
  refine ⟨fun s level ready other => ?_, fun s level init other => ?_, fun s => congrArg Host.Outcome.next (if_pos rfl), ?_⟩
  · show Host.Outcome.next (s.externalChanges level) = _
    unfold State.externalChanges
    rw [if_neg other.symm, if_pos ready]
    rfl
  · show Host.Outcome.next (s.externalChanges level) = _
    unfold State.externalChanges
    rw [if_neg other.symm, if_neg init]
  · intro s due timer u
    have expired : s.externalExpires = u.reportIf (s.tu.extRaw && !s.tu.extFiltered) .externalTrip := by
      unfold State.externalExpires
      rw [timer]
      rfl
    refine ⟨_, congrArg Host.Outcome.next expired, fun raw filtered => ?_, fun same => ?_⟩
    · rw [raw, filtered]
      exact u.report_spec _
    · refine State.reportIf_of_false ?_ _
      simpa using same

end Sys2Proof.Machine

/-! The sensor port (O51) and the taking of a sample frame (R103 to R109, O52). -/

namespace Sys2Proof.Machine

/-! ### Tables and groups -/

theorem getElem?_modifyAt {α : Type} (f : α → α) (i j : Nat) (l : List α) :
    (modifyAt f i l)[j]? = (l[j]?).map fun x => if j = i then f x else x := by
  induction l generalizing i j with
  | nil => simp [modifyAt]
  | cons x xs ih =>
    cases i with
    | zero => cases j <;> simp [modifyAt]
    | succ i => cases j <;> simp [modifyAt, ih]

/-- A fold of no magnitude folds 0, which changes no peak (R108). -/
theorem State.foldGroup_table (s : State) (g : Chan) (m : List Nat) (j : Nat) :
    (s.foldGroup g m).pt.table[j]? = (s.pt.table[j]?).map fun e => if j = s.pt.sector then e.foldVibration g (m.foldl max 0) else e := by
  unfold State.foldGroup
  split
  case isTrue none =>
    rw [List.isEmpty_iff.1 none]
    have same : ∀ e : WorkEntry, e.foldVibration g 0 = e := fun e => by cases g <;> simp [WorkEntry.foldVibration]
    simp [same]
  case isFalse => exact getElem?_modifyAt _ _ _ _

/-! ### The work on the samples of a frame (R105 to R107) -/

theorem SensorChannel.corrected_eq (c : SensorChannel) (x : Int) :
    c.corrected x = max (-32768) (min 32767 (x - (c.off + 128) / 256)) := clamp_eq (by decide)

theorem SensorChannel.enabled_iff (c : SensorChannel) : c.enabled = true ↔ c.level ≠ .disabled := by
  simp [SensorChannel.enabled]

/-- A bad sample: a stuck run of k, or the channel's bias fault (R107). -/
abbrev VibrationWatch.BadSample (v : VibrationWatch) (f : SampleFrame) (i : Fin 8) : Prop :=
  v.k ≤ (if (v.channels.get i).lastRaw = some (f.samples.get i) then min ((v.channels.get i).stuck + 1) v.k else 0) ∨
    f.bias.getLsbD i.val = true

/-- The channels that a frame takes into FAULT (R107, R115). -/
abbrev VibrationWatch.EntersFault (v : VibrationWatch) (f : SampleFrame) (i : Fin 8) : Prop :=
  (v.channels.get i).level ≠ .disabled ∧ v.BadSample f i ∧ (v.channels.get i).level ≠ .fault

theorem VibrationWatch.sampled_off {v : VibrationWatch} {i : Fin 8} (off : ¬(v.channels.get i).level ≠ .disabled) (f : SampleFrame) :
    (v.sampled f).get i = v.channels.get i := by
  rw [VibrationWatch.sampled_get, if_neg (mt (SensorChannel.enabled_iff _).1 off)]

theorem VibrationWatch.sampled_on {v : VibrationWatch} {i : Fin 8} (on : (v.channels.get i).level ≠ .disabled) (f : SampleFrame) :
    (v.sampled f).get i = (v.channels.get i).sample v.k (f.samples.get i) (f.bias.getLsbD i.val) := by
  rw [VibrationWatch.sampled_get, if_pos ((SensorChannel.enabled_iff _).2 on)]

theorem VibrationWatch.sampled_level {v : VibrationWatch} {i : Fin 8} (on : (v.channels.get i).level ≠ .disabled) (f : SampleFrame) :
    ((v.sampled f).get i).level = if v.BadSample f i then .fault else (v.channels.get i).level := by
  rw [VibrationWatch.sampled_on on, SensorChannel.sample_spec]

/-- The work on the samples enables and disables no channel. -/
theorem VibrationWatch.sampled_enabled (v : VibrationWatch) (f : SampleFrame) (i : Fin 8) :
    ((v.sampled f).get i).level ≠ .disabled ↔ (v.channels.get i).level ≠ .disabled := by
  by_cases on : (v.channels.get i).level ≠ .disabled
  · rw [VibrationWatch.sampled_level on]
    split <;> simp [on]
  · rw [VibrationWatch.sampled_off on]

theorem VibrationWatch.mem_faultEntries (v : VibrationWatch) (f : SampleFrame) (i : Fin 8) :
    i ∈ v.faultEntries f ↔ v.EntersFault f i := by
  simp only [VibrationWatch.faultEntries, List.mem_filter, mem_sensorNumbers, true_and, Bool.and_eq_true, bne_iff_ne, beq_iff_eq]
  by_cases on : (v.channels.get i).level ≠ .disabled
  · rw [VibrationWatch.sampled_level on]
    by_cases bad : v.BadSample f i
    · simp only [if_pos bad, and_true]
      exact ⟨fun idle => ⟨on, bad, idle⟩, fun ⟨_, _, idle⟩ => idle⟩
    · rw [if_neg bad]
      exact ⟨fun ⟨idle, fault⟩ => absurd fault idle, fun ⟨_, enters, _⟩ => absurd enters bad⟩
  · rw [VibrationWatch.sampled_off on]
    exact ⟨fun ⟨idle, fault⟩ => absurd fault idle, fun ⟨live, _⟩ => absurd live on⟩

/-- The magnitudes of the channels of a group that are eligible (R108). -/
theorem VibrationWatch.groupMagnitudes_eq (v : VibrationWatch) (f : SampleFrame) (g : Chan) :
    v.groupMagnitudes f g =
      (sensorNumbers.filter fun i => decide ((v.channels.get i).level ≠ .disabled ∧ (v.channels.get i).group = g ∧
        (v.channels.get i).level ≠ .fault ∧ ¬v.BadSample f i)).map
        fun i => min ((max (-32768) (min 32767 (f.samples.get i - ((v.channels.get i).off + 128) / 256)) : Int)).natAbs 32767 := by
  unfold VibrationWatch.groupMagnitudes
  congr 1
  · funext i
    rw [magnitude, SensorChannel.corrected_eq]
  · refine List.filter_congr fun i _ => ?_
    rw [Bool.eq_iff_iff, decide_eq_true_eq]
    simp only [Bool.and_eq_true, beq_iff_eq, bne_iff_ne, SensorChannel.enabled_iff, and_assoc]
    rw [VibrationWatch.sampled_enabled]
    refine and_congr_right fun on => ?_
    have group : ((v.sampled f).get i).group = (v.channels.get i).group := by
      rw [VibrationWatch.sampled_on on, SensorChannel.sample_spec]
    rw [group, VibrationWatch.sampled_level on]
    refine and_congr_right fun _ => ?_
    by_cases bad : v.BadSample f i <;> simp [bad]

/-! ### The effects of the entries into FAULT (R115, R117, R119, R120) -/

theorem State.faultEffects_vw (s : State) (l : List (Fin 8)) :
    (s.faultEffects l).vw = { s.vw with
      derate := if s.rc.drive.live = true ∧ ∃ i ∈ l, (s.vw.channels.get i).tripEnable = true then .blind else s.vw.derate
      quietTime := if l = [] then s.vw.quietTime else 0 } := by
  unfold State.faultEffects
  split
  case isTrue none =>
    rw [List.isEmpty_iff] at none
    simp [none]
  case isFalse some =>
    rw [List.isEmpty_iff] at some
    rw [State.blindIf_vw, if_neg some]
    by_cases blind : s.rc.drive.live = true ∧ ∃ i ∈ l, (s.vw.channels.get i).tripEnable = true
    · rw [if_pos blind]
      simp [blind.1, blind.2]
    · rw [if_neg blind, if_neg (by simpa [and_comm] using blind)]
      simp [State.zeroQuiet]

theorem State.faultEffects_getLsbD (s : State) (l : List (Fin 8)) (i : Nat) :
    (s.faultEffects l).rn.notice.getLsbD i = true ↔
      s.rn.notice.getLsbD i = true ∨ (i = 6 ∧ l ≠ []) ∨
        (i = 5 ∧ (s.rc.drive.live = true ∧ ∃ i ∈ l, (s.vw.channels.get i).tripEnable = true) ∧ s.vw.derate ≠ .blind ∧
          (s.vw.derate = .none ∨ s.rn.derateAny = true)) := by
  unfold State.faultEffects
  split
  case isTrue none =>
    rw [List.isEmpty_iff] at none
    simp [none]
  case isFalse some =>
    rw [List.isEmpty_iff] at some
    rw [State.blindIf_getLsbD]
    have derateAny : (s.notifyLevel true).rn.derateAny = s.rn.derateAny := by rw [(s.notifyLevel_moves true).rn]
    simp only [State.zeroQuiet_rn, State.notifyLevel_getLsbD, State.zeroQuiet_vw, State.zeroQuiet_rc, State.notifyLevel_keeps, derateAny,
      Bool.or_eq_true, Bool.and_eq_true, decide_eq_true_eq, List.any_eq_true, beq_iff_eq]
    tauto

/-! ### The completion test (R109) -/

theorem Octet.toList_eq {α : Type} (o : Octet α) : o.toList = sensorNumbers.map o.get := rfl

theorem VibrationWatch.enabledCount_eq (v : VibrationWatch) :
    v.enabledCount = (sensorNumbers.filter fun i => decide ((v.channels.get i).level ≠ .disabled)).length := by
  rw [VibrationWatch.enabledCount, Octet.toList_eq, List.filter_map, List.length_map]
  congr 1
  refine List.filter_congr fun i _ => ?_
  rw [Bool.eq_iff_iff, decide_eq_true_eq]
  exact SensorChannel.enabled_iff _

theorem State.completionTest_evaluation (s : State) :
    s.completionTest.vw.evaluation =
      if ∃ i, (s.vw.channels.get i).complete s.vw.n = true then
        some { due := s.now + 20 * s.vw.enabledCount
               latched := (sensorNumbers.filter fun i => (s.vw.channels.get i).complete s.vw.n).map fun i =>
                 (s.vw.channels.get i).latch i s.vw.n }
      else s.vw.evaluation := by
  have some : (sensorNumbers.filter fun i => (s.vw.channels.get i).complete s.vw.n).isEmpty = true ↔
      ¬∃ i, (s.vw.channels.get i).complete s.vw.n = true := by
    simp [List.filter_eq_nil_iff]
  unfold State.completionTest
  dsimp only
  split
  case isTrue none => rw [if_neg (some.1 none)]
  case isFalse full => rw [if_pos (not_not.1 fun h => full (some.2 h))]; rfl

/-! ### A taken frame (R103) -/

/-- Behind the work on the samples, the channels whose block is full (R106, R109). -/
abbrev VibrationWatch.Fills (v : VibrationWatch) (i : Fin 8) : Prop :=
  (v.channels.get i).level ≠ .disabled ∧ (v.channels.get i).count + 1 = v.n

theorem VibrationWatch.sampled_complete (v : VibrationWatch) (f : SampleFrame) (i : Fin 8) :
    ((v.sampled f).get i).complete v.n = true ↔ v.Fills i := by
  rw [SensorChannel.complete, Bool.and_eq_true, SensorChannel.enabled_iff, VibrationWatch.sampled_enabled, beq_iff_eq]
  refine and_congr_right fun on => ?_
  rw [VibrationWatch.sampled_on on, SensorChannel.sample_spec]

theorem VibrationWatch.faultEntries_eq_nil (v : VibrationWatch) (f : SampleFrame) :
    v.faultEntries f = [] ↔ ¬∃ i, v.EntersFault f i := by
  rw [List.eq_nil_iff_forall_not_mem, not_exists]
  exact forall_congr' fun i => not_congr (v.mem_faultEntries f i)

theorem VibrationWatch.faultEntries_trip (v : VibrationWatch) (f : SampleFrame) :
    (∃ i ∈ v.faultEntries f, ((v.sampled f).get i).tripEnable = true) ↔
      ∃ i, v.EntersFault f i ∧ (v.channels.get i).tripEnable = true := by
  refine exists_congr fun i => ?_
  rw [v.mem_faultEntries f i]
  refine and_congr_right fun ⟨on, _⟩ => ?_
  rw [VibrationWatch.sampled_on on, SensorChannel.sample_tripEnable]

/-- The entries into FAULT have taken effect upon the channels at their work on the samples. -/
abbrev State.faulted (s : State) (f : SampleFrame) : State :=
  State.faultEffects { s with vw := { s.vw with channels := s.vw.sampled f } } (s.vw.faultEntries f)

theorem State.faulted_vw (s : State) (f : SampleFrame) :
    (s.faulted f).vw = { s.vw with
      channels := s.vw.sampled f
      derate := if s.rc.drive.live = true ∧ ∃ i, s.vw.EntersFault f i ∧ (s.vw.channels.get i).tripEnable = true then .blind
        else s.vw.derate
      quietTime := if ∃ i, s.vw.EntersFault f i then 0 else s.vw.quietTime } := by
  rw [State.faultEffects_vw]
  simp only [VibrationWatch.faultEntries_trip, VibrationWatch.faultEntries_eq_nil, ite_not]

theorem State.faulted_getLsbD (s : State) (f : SampleFrame) (i : Nat) :
    (s.faulted f).rn.notice.getLsbD i = true ↔
      s.rn.notice.getLsbD i = true ∨ (i = 6 ∧ ∃ j, s.vw.EntersFault f j) ∨
        (i = 5 ∧ (s.rc.drive.live = true ∧ ∃ j, s.vw.EntersFault f j ∧ (s.vw.channels.get j).tripEnable = true) ∧
          s.vw.derate ≠ .blind ∧ (s.vw.derate = .none ∨ s.rn.derateAny = true)) := by
  rw [State.faultEffects_getLsbD]
  simp only [VibrationWatch.faultEntries_trip, ne_eq, VibrationWatch.faultEntries_eq_nil, not_not]

/-- The state that the completion test finds. -/
abbrev State.folded (s : State) (f : SampleFrame) : State :=
  ((s.faulted f).foldGroup .a (s.vw.groupMagnitudes f .a)).foldGroup .b (s.vw.groupMagnitudes f .b)

theorem State.folded_vw (s : State) (f : SampleFrame) : (s.folded f).vw = (s.faulted f).vw := by simp

theorem State.takeFrame_channel (s : State) (f : SampleFrame) (i : Fin 8) :
    (s.takeFrame f).vw.channels.get i = if s.vw.Fills i then ((s.vw.sampled f).get i).newBlock else (s.vw.sampled f).get i := by
  show (s.folded f).completionTest.vw.channels.get i = _
  rw [State.completionTest_channel, State.folded_vw, State.faulted_vw]
  exact if_congr (s.vw.sampled_complete f i) rfl rfl

theorem State.takeFrame_evaluation (s : State) (f : SampleFrame) :
    (s.takeFrame f).vw.evaluation =
      if ∃ i, s.vw.Fills i then
        some { due := s.now + 20 * (sensorNumbers.filter fun i => decide ((s.vw.channels.get i).level ≠ .disabled)).length
               latched := (sensorNumbers.filter fun i => decide (s.vw.Fills i)).map fun i => ((s.vw.sampled f).get i).latch i s.vw.n }
      else s.vw.evaluation := by
  show (s.folded f).completionTest.vw.evaluation = _
  have now : (s.folded f).now = s.now := by simp
  have full : (sensorNumbers.filter fun i => ((s.vw.sampled f).get i).complete s.vw.n) =
      sensorNumbers.filter fun i => decide (s.vw.Fills i) :=
    List.filter_congr fun i _ => by rw [Bool.eq_iff_iff, decide_eq_true_eq]; exact s.vw.sampled_complete f i
  rw [State.completionTest_evaluation, State.folded_vw, State.faulted_vw, VibrationWatch.enabledCount_eq, now]
  simp only [VibrationWatch.sampled_complete, VibrationWatch.sampled_enabled, full]

theorem State.takeFrame_table (s : State) (f : SampleFrame) (j : Nat) :
    (s.takeFrame f).pt.table[j]? = (s.pt.table[j]?).map fun e =>
      if j = s.pt.sector then
        (e.foldVibration .a ((s.vw.groupMagnitudes f .a).foldl max 0)).foldVibration .b ((s.vw.groupMagnitudes f .b).foldl max 0)
      else e := by
  show (s.folded f).completionTest.pt.table[j]? = _
  have pt : (s.folded f).completionTest.pt = (s.folded f).pt := by simp
  have sector : ((s.faulted f).foldGroup .a (s.vw.groupMagnitudes f .a)).pt.sector = s.pt.sector := by
    rw [(State.foldGroup_moves _ _ _).pt]
    simp
  have sector' : (s.faulted f).pt = s.pt := by simp
  rw [pt, State.foldGroup_table, State.foldGroup_table, sector, sector', Option.map_map]
  congr 1
  funext e
  by_cases here : j = s.pt.sector <;> simp [here]

/-- What a taken frame leaves but for the channels, derate, the quiet time, the evaluation, the notices and the table. -/
theorem State.takeFrame_frame (s : State) (f : SampleFrame) :
    s.takeFrame f = { s with
      pt := { s.pt with table := (s.takeFrame f).pt.table }
      rn := { s.rn with notice := (s.takeFrame f).rn.notice }
      vw := { s.vw with
        channels := (s.takeFrame f).vw.channels, derate := (s.takeFrame f).vw.derate
        quietTime := (s.takeFrame f).vw.quietTime, evaluation := (s.takeFrame f).vw.evaluation } } := by
  have moves : s.takeFrame f = _ := s.takeFrame_moves f
  have now : (s.takeFrame f).now = s.now := by simp
  have vw : (s.takeFrame f).vw = { s.vw with
      channels := (s.takeFrame f).vw.channels, derate := (s.takeFrame f).vw.derate
      quietTime := (s.takeFrame f).vw.quietTime, evaluation := (s.takeFrame f).vw.evaluation } := by
    show (s.folded f).completionTest.vw = { s.vw with
      channels := (s.folded f).completionTest.vw.channels, derate := (s.folded f).completionTest.vw.derate
      quietTime := (s.folded f).completionTest.vw.quietTime, evaluation := (s.folded f).completionTest.vw.evaluation }
    rw [State.completionTest_vw, State.folded_vw, State.faulted_vw]
  rw [now, vw] at moves
  exact moves

theorem State.takeFrame_spec {s : State} (idle : s.vw.evaluation = none) (f : SampleFrame) : FrameTaken f s (s.takeFrame f) := by
  unfold FrameTaken
  intro c on x ac size stuck bad enters full peakOf blind
  refine ⟨fun i off => ?_, fun i live => ?_, ?_, ?_, ?_, ?_, ?_, s.takeFrame_frame f⟩
  case refine_1 =>
    rw [State.takeFrame_channel, if_neg (fun fills => off fills.1), VibrationWatch.sampled_off off]
  case refine_2 =>
    have entry : ∀ n : Nat, (if enters i then 0 else n) = if bad i ∧ (c i).level ≠ .fault then 0 else n := fun n =>
      if_congr (and_iff_right live) rfl rfl
    rw [State.takeFrame_channel, VibrationWatch.sampled_on live, SensorChannel.sample_spec]
    by_cases fills : s.vw.Fills i
    · have isFull : full i := fills
      simp only [entry, if_pos isFull, if_pos fills]
      rfl
    · have part : ¬full i := fills
      simp only [entry, if_neg part, if_neg fills]
      rfl
  case refine_3 =>
    have rn : (s.takeFrame f).rn = (s.faulted f).rn := by simp [State.takeFrame]
    rw [rn]
    exact fun i _ => s.faulted_getLsbD f i
  case refine_4 =>
    have derate : (s.takeFrame f).vw.derate = (s.faulted f).vw.derate := by
      show (s.folded f).completionTest.vw.derate = _
      rw [State.completionTest_derate, State.folded_vw]
    rw [derate, State.faulted_vw]
  case refine_5 =>
    have quiet : (s.takeFrame f).vw.quietTime = (s.faulted f).vw.quietTime := by
      show (s.folded f).completionTest.vw.quietTime = _
      rw [State.completionTest_quietTime, State.folded_vw]
    rw [quiet, State.faulted_vw]
  case refine_6 =>
    have latched : ∀ i ∈ sensorNumbers.filter fun i => decide (s.vw.Fills i), ((s.vw.sampled f).get i).latch i s.vw.n =
        { channel := i, n := s.vw.n, sumSq := (c i).sumSq + (ac i).natAbs * (ac i).natAbs, peak := max (c i).peak (size i)
          gapped := (c i).gapped, faultSeen := (c i).faultSeen || decide (bad i), dropped := false } := fun i fills => by
      have on : (s.vw.channels.get i).level ≠ .disabled := by
        simp only [List.mem_filter, decide_eq_true_eq] at fills
        exact fills.2.1
      rw [VibrationWatch.sampled_on on, SensorChannel.sample_spec]
      rfl
    rw [State.takeFrame_evaluation, idle, List.map_congr_left latched]
  case refine_7 =>
    intro j
    rw [State.takeFrame_table, VibrationWatch.groupMagnitudes_eq, VibrationWatch.groupMagnitudes_eq]
    rfl

end Sys2Proof.Machine

/-! The sensor port (R99 to R104): what it discards, queues and takes (O51, O52), and its loss. -/

namespace Sys2Proof.Machine

/-! ### Derate changes as equations (R119, R122) -/

theorem State.setDerate_eq (s : State) (d : Derate) :
    s.setDerate d = { s with
      vw := { s.vw with derate := d }
      rn := { s.rn with
        notice := if s.vw.derate ≠ d ∧ (s.vw.derate = .none ∨ s.rn.derateAny = true) then s.rn.notice ||| 0x20#10
          else s.rn.notice } } := by
  unfold State.setDerate
  split
  case isTrue same =>
    rw [if_neg (fun h => h.1 same), ← same]
  case isFalse change =>
    unfold State.notifyDerate State.notifyIf
    by_cases told : s.vw.derate = .none ∨ s.rn.derateAny = true
    · rw [if_pos (by simpa using told), if_pos ⟨change, told⟩]
      rfl
    · rw [if_neg (by simpa using told), if_neg (fun h => told h.2)]

/-- BLIND established while the drive is live (R119). -/
theorem State.blindIf_eq (s : State) (b : Bool) :
    s.blindIf b =
      if b = true ∧ s.rc.drive.live = true then
        { s with
          vw := { s.vw with derate := .blind, quietTime := 0 }
          rn := { s.rn with
            notice := if s.vw.derate ≠ .blind ∧ (s.vw.derate = .none ∨ s.rn.derateAny = true) then s.rn.notice ||| 0x20#10
              else s.rn.notice } }
      else s := by
  unfold State.blindIf State.establishBlind
  rw [State.setDerate_eq]
  exact if_congr (Bool.and_eq_true_iff ..) rfl rfl

/-! ### The waiting frames (R103) -/

theorem State.drain_spec {s : State} (idle : s.vw.evaluation = none) (fs : List SampleFrame) : FramesTaken fs s (s.drain fs) := by
  induction fs generalizing s with
  | nil => rfl
  | cons f rest ih =>
    refine ⟨_, State.takeFrame_spec (s := { s with vw := { s.vw with fifo := rest } }) idle f, fun collecting => ?_, fun evaluating => ?_⟩
    · rw [State.drain_cons, if_neg (by simp [collecting])]
      exact ih collecting
    · rw [State.drain_cons, if_pos (Option.isSome_iff_ne_none.2 evaluating)]

/-! ### Acceptance (R100, R101) -/

theorem State.notifyIf_decide (s : State) (p : Prop) [Decidable p] (n : Notice) :
    s.notifyIf (decide p) n = { s with rn := if p then { s.rn with notice := s.rn.notice ||| n.mark } else s.rn } := by
  by_cases h : p
  · rw [decide_eq_true h, if_pos h]
    rfl
  · rw [decide_eq_false h, if_neg h]
    rfl

theorem byteAt_append {l : List Byte} {i : Nat} (h : i < l.length) (m : List Byte) : byteAt (l ++ m) i = l.getD i 0 :=
  List.getD_append l m 0 i h

/-- The fields of a sample frame by its bytes, the check apart (R186). -/
theorem decodeSample_append {body : List Byte} (length : body.length = 18) (check : List Byte) :
    decodeSample (body ++ check) = sampleOf body := by
  unfold decodeSample sampleOf
  rw [byteAt_append (by omega)]
  congr 2
  funext n
  rw [leSigned_eq, byteAt_append (by omega), byteAt_append (by omega), Nat.add_right_comm]

/-- The acceptance of a frame, before its admission (R100, R101). -/
abbrev State.sampleAccepted (s : State) (q : Byte) : State :=
  { s with
    vw := s.vw.accepted s.now q.toNat
    rn := if s.vw.rx ≠ .up ∧ 3 ≤ s.vw.goodRun then { s.rn with notice := s.rn.notice ||| 0x100#10 } else s.rn }

theorem State.acceptSample_eq {s : State} {q : Byte} {rest : List Byte} (length : rest.length = 17)
    (byte : ∀ p, s.vw.lastSeq = some p → p ≤ 255) (check : List Byte) :
    s.acceptSample (q :: rest ++ check) = (s.sampleAccepted q).admitFrame (sampleOf (q :: rest)) := by
  have missed : s.vw.missed.add (missedBetween s.vw.lastSeq q.toNat) =
      match s.vw.lastSeq with
      | some p => s.vw.missed.plus (((q.toNat : Int) - p - 1) % 256).toNat
      | none => s.vw.missed.plus 0 := by
    rw [Counter.add_eq_plus]
    cases last : s.vw.lastSeq with
    | none => rfl
    | some p => rw [missedBetween_some p _ (byte p last) (Nat.le_of_lt_succ q.isLt)]
  have rises : (s.vw.rx != .up && min (s.vw.goodRun + 1) 4 == 4) = decide (s.vw.rx ≠ .up ∧ 3 ≤ s.vw.goodRun) := by
    rw [Bool.eq_iff_iff, decide_eq_true_eq]
    simp only [Bool.and_eq_true, bne_iff_ne, beq_iff_eq]
    refine and_congr_right fun _ => ?_
    omega
  have seq : (byteAt (q :: rest ++ check) 0).toNat = q.toNat := rfl
  unfold State.acceptSample
  rw [decodeSample_append (by rw [List.length_cons, length]), seq]
  dsimp only
  rw [missed, rises]
  rw [State.notifyIf_decide]
  simp only [decide_eq_true_eq]
  rfl

theorem State.sampleFrame_good {s : State} {q : Byte} {rest : List Byte} (synced : s.vw.synced = true) (length : rest.length = 17) :
    s.sampleFrame (goodFrame (q :: rest)) =
      if s.vw.lastSeq = some q.toNat then s.discardSample false
      else s.acceptSample (q :: rest ++ [(crc16 (q :: rest)).extractLsb' 8 8, (crc16 (q :: rest)).extractLsb' 0 8]) := by
  have checked := checkedFrame_goodFrame (q :: rest)
  rw [List.length_cons, length] at checked
  unfold State.sampleFrame
  rw [if_neg (by simp [synced, goodFrame_ne_nil]), checked]
  rfl

/-- The COLLECTING unit, without waiting frames, takes a frame at once (R103). -/
theorem State.admitFrame_collecting {s : State} (idle : s.vw.evaluation = none) (empty : s.vw.fifo = []) (f : SampleFrame) :
    s.admitFrame f = s.takeFrame f := by
  have same : { s with vw := { s.vw with fifo := [] } } = s := by rw [← empty]
  have kept : (s.takeFrame f).vw.fifo = [] := (s.takeFrame_fifo f).trans empty
  unfold State.admitFrame
  rw [if_neg (by simp [empty, Config.fifoMax]), if_neg (by simp [idle]), empty, List.nil_append, State.drain_cons, same, State.drain_nil]
  split
  · rfl
  · rw [← kept]

/-- An accepted frame waits while the unit is EVALUATING (R103). -/
theorem State.admitFrame_evaluating {s : State} (room : ¬3 ≤ s.vw.fifo.length) (evaluating : s.vw.evaluation.isSome = true)
    (f : SampleFrame) : s.admitFrame f = { s with vw := { s.vw with fifo := s.vw.fifo ++ [f] } } :=
  (if_neg room).trans (if_pos evaluating)

/-- Behind three waiting frames a frame is discarded as a gap, and every enabled channel's block is gapped (R104). -/
theorem State.admitFrame_overrun {s : State} (full : 3 ≤ s.vw.fifo.length) (f : SampleFrame) :
    s.admitFrame f = { s with vw := { s.vw with
      gaps := s.vw.gaps.plus 1
      channels := s.vw.channels.map fun c => if c.level = .disabled then c else { c with gapped := true } } } := by
  have channel : (fun c : SensorChannel => if c.enabled then { c with gapped := true } else c) =
      fun c => if c.level = .disabled then c else { c with gapped := true } := by
    funext c
    by_cases off : c.level = .disabled <;> simp [SensorChannel.enabled, off]
  refine (if_pos full).trans ?_
  rw [channel]
  rfl

/-- Settles O52. -/
theorem takenSampleFrameMovesTheChannels : Obligations.TakenSampleFrameMovesTheChannels := by
  intro s q rest synced length new byte idle empty accepted
  have taken : s.sampleFrame (goodFrame (q :: rest)) = accepted.takeFrame (sampleOf (q :: rest)) := by
    rw [State.sampleFrame_good synced length, if_neg new, State.acceptSample_eq length byte]
    exact State.admitFrame_collecting (s := accepted) idle empty _
  exact ⟨_, congrArg Host.Outcome.next taken, State.takeFrame_spec (s := accepted) idle _⟩

/-- A lost port discards the blocks in progress, the stuck runs and the last raw samples (R102). -/
abbrev SensorChannel.cleared (c : SensorChannel) : SensorChannel :=
  if c.level = .disabled then c
  else { c with sumSq := 0, peak := 0, count := 0, gapped := false, faultSeen := false, stuck := 0, lastRaw := none }

/-- UP to LOST (R102, R119). -/
theorem State.portLost_eq (s : State) :
    let told := (s.rc.drive.live = true ∧ s.vw.derate ≠ .blind) ∧ (s.vw.derate = .none ∨ s.rn.derateAny = true)
    s.portLost = { s with
      rn := { s.rn with notice := if told then s.rn.notice ||| 0x100#10 ||| 0x20#10 else s.rn.notice ||| 0x100#10 }
      vw := { s.vw with
        rx := .lost, fifo := [], quietTime := 0
        derate := if s.rc.drive.live then .blind else s.vw.derate
        channels := s.vw.channels.map SensorChannel.cleared } } := by
  intro told
  have channel : (fun c : SensorChannel => if c.enabled then { c.newBlock with stuck := 0, lastRaw := none } else c) =
      SensorChannel.cleared := by
    funext c
    by_cases off : c.level = .disabled <;> simp [SensorChannel.enabled, SensorChannel.cleared, SensorChannel.newBlock, off]
  unfold State.portLost
  rw [channel]
  dsimp only
  rw [State.blindIf_eq]
  by_cases live : s.rc.drive.live = true
  · rw [if_pos live]
    refine (congrArg State.zeroQuiet (if_pos ⟨rfl, live⟩)).trans ?_
    have same : told ↔ s.vw.derate ≠ .blind ∧ (s.vw.derate = .none ∨ s.rn.derateAny = true) := by simp only [told, live, true_and]
    rw [if_congr same rfl rfl]
    rfl
  · rw [if_neg live, if_neg (show ¬told from fun h => live h.1.1)]
    exact congrArg State.zeroQuiet (if_neg fun h => live h.2)

/-- The expiry of the port's loss timer (R101, R102). -/
theorem State.portLossExpires_eq {s : State} {due : Nat} (timer : s.vw.lossTimer = some due) :
    let told := (s.rc.drive.live = true ∧ s.vw.derate ≠ .blind) ∧ (s.vw.derate = .none ∨ s.rn.derateAny = true)
    s.portLossExpires =
      if s.vw.rx = .up then
        { s with
          now := max s.now due
          rn := { s.rn with notice := if told then s.rn.notice ||| 0x100#10 ||| 0x20#10 else s.rn.notice ||| 0x100#10 }
          vw := { s.vw with
            lossTimer := none, goodRun := 0, rx := .lost, fifo := [], quietTime := 0
            derate := if s.rc.drive.live then .blind else s.vw.derate
            channels := s.vw.channels.map SensorChannel.cleared } }
      else { s with now := max s.now due, vw := { s.vw with lossTimer := none, goodRun := 0 } } := by
  intro told
  unfold State.portLossExpires
  rw [timer]
  exact if_congr Iff.rfl (State.portLost_eq _) rfl

/-- Settles O51. -/
theorem sensorPortDiscardsQueuesAndIsLost : Obligations.SensorPortDiscardsQueuesAndIsLost := by
  refine ⟨fun s frame synced bytes bad => ?_, fun s q rest synced length repeats => ?_,
    fun s q rest synced length new byte waits => ?_, fun s due timer => ?_⟩
  · show Host.Outcome.next (s.sampleFrame frame) = _
    unfold State.sampleFrame
    rw [if_neg (by simp [synced, bytes]), checkedFrame_eq_none (by decide) bad]
    rfl
  · show Host.Outcome.next (s.sampleFrame _) = _
    rw [State.sampleFrame_good synced length, if_pos repeats]
    rfl
  · show Host.Outcome.next (s.sampleFrame _) = _
    rw [State.sampleFrame_good synced length, if_neg new, State.acceptSample_eq length byte]
    by_cases full : 3 ≤ s.vw.fifo.length
    · rw [State.admitFrame_overrun (s := s.sampleAccepted q) full, if_pos full]
      rfl
    · rw [State.admitFrame_evaluating (s := s.sampleAccepted q) full (waits.resolve_right full), if_neg full]
      rfl
  · exact congrArg Host.Outcome.next (State.portLossExpires_eq timer)

end Sys2Proof.Machine

/-! RUN as it starts the drive (R5, R6, O30), and SET SENSOR (R123, O29). -/

namespace Sys2Proof.Machine

/-! ### RUN (R6, R44, R119) -/

/-- The drive started, before VW's BLIND test. -/
def State.started (s : State) : State :=
  { s with
    rc := { s.rc with drive := .starting, permit := true, breakAway := some (s.now + s.rc.wba * 1000000), stopHold := none }
    reg := ⟨if s.rc.isolated.a then s.reg.a else { s.reg.a with active := true, acc := 0 },
      if s.rc.isolated.b then s.reg.b else { s.reg.b with active := true, acc := 0 }⟩
    rn := { s.rn with notice := s.rn.notice ||| 0x200#10 } }

theorem State.startRun_eq (s : State) : s.startRun = s.started.blindIf s.vw.blindCondition := rfl

theorem State.startRun_frame (s : State) :
    s.startRun = { s.started with
      vw := { s.vw with derate := s.startRun.vw.derate, quietTime := s.startRun.vw.quietTime }
      rn := { s.rn with notice := s.startRun.rn.notice } } := by
  rw [State.startRun_eq, State.blindIf_eq]
  split
  · rfl
  · rfl

/-- RUN raises STATE, and DERATE with BLIND (R6, R122). -/
theorem State.startRun_getLsbD (s : State) (i : Nat) :
    s.startRun.rn.notice.getLsbD i = true ↔
      s.rn.notice.getLsbD i = true ∨ i = 9 ∨
        (i = 5 ∧ s.vw.blindCondition = true ∧ s.vw.derate ≠ .blind ∧ (s.vw.derate = .none ∨ s.rn.derateAny = true)) := by
  have state : s.started.rn.notice.getLsbD i = (s.rn.notice.getLsbD i || decide (i = 9)) := s.notify_getLsbD .state i
  have live : s.started.rc.drive.live = true := rfl
  have derate : s.started.vw.derate = s.vw.derate := rfl
  have any : s.started.rn.derateAny = s.rn.derateAny := rfl
  rw [State.startRun_eq, State.blindIf_getLsbD, state, live, derate, any]
  simp only [Bool.or_eq_true, Bool.and_eq_true, decide_eq_true_eq, beq_iff_eq, and_true, or_assoc]
  rw [and_comm (b := i = 5), and_assoc]

/-- No check of R5 fails. -/
theorem State.runRefusal_eq_none {s : State} (drive : s.rc.drive = .stopped) (flags : ∀ n, ¬s.rc.Missing n) (links : ∀ ch, ¬s.Unfit ch)
    (free : ∀ i, (s.vw.channels.get i).injection = none) : s.runRefusal = none := by
  have injecting : s.vw.injecting = false :=
    Bool.eq_false_iff.2 fun h => (s.vw.injecting_iff.1 h).elim fun i active => active (free i)
  simp [State.runRefusal, drive, RunControl.missingFlag_eq_none flags, State.unfitLink_eq_none (links .a) (links .b), injecting]

/-- Settles O30. -/
theorem runStartsTheDrive : Obligations.RunStartsTheDrive := by
  intro s hr stopped flagsA flagsB envelope position links free blind
  have missing : ∀ n, ¬s.rc.Missing n := by
    rintro n (⟨-, service, clear⟩ | ⟨-, service, clear⟩ | ⟨-, service, clear⟩ | ⟨-, service, clear⟩ | ⟨-, clear⟩ | ⟨-, clear⟩)
    · simp [(flagsA service).1] at clear
    · simp [(flagsB service).1] at clear
    · simp [(flagsA service).2] at clear
    · simp [(flagsB service).2] at clear
    · simp [envelope] at clear
    · simp [position] at clear
  have fit : ∀ ch, ¬s.Unfit ch := fun ch ⟨service, unfit⟩ => unfit (links ch service)
  have passes : s.countRecord.runRefusal = none := State.runRefusal_eq_none (s := s) stopped missing fit free
  have acts : ownRun s.recordOrder s.countRecord = (s.countRecord.startRun, resDone) := by rw [ownRun, passes]
  have cond : s.vw.blindCondition = true ↔ blind := s.vw.blindCondition_iff
  have run := takeUp_done (k := .run) hr acts (by simp [State.startRun])
  have eq := s.countRecord.startRun_eq
  have frame := s.countRecord.startRun_frame
  have notice := s.countRecord.startRun_getLsbD
  generalize s.countRecord.startRun = w at run eq frame notice
  change ∀ i, _ ↔ s.rn.notice.getLsbD i = true ∨ i = 9 ∨ (i = 5 ∧ s.vw.blindCondition = true ∧ s.vw.derate ≠ .blind ∧
    (s.vw.derate = .none ∨ s.rn.derateAny = true)) at notice
  change w = s.countRecord.started.blindIf s.vw.blindCondition at eq
  have vw : w.vw = if blind then { s.vw with derate := .blind, quietTime := 0 } else s.vw := by
    rw [eq, State.blindIf_vw]
    refine if_congr ?_ rfl rfl
    rw [Bool.and_eq_true, cond]
    exact and_iff_left rfl
  refine ⟨_, { w with cw := s.cw }, exec_command .run s, run, fun i word => ?_, fun holds => ?_, fun fails => ?_, ?_⟩
  · show w.rn.notice.getLsbD i = true ↔ _
    rw [notice i, cond]
  · show w.vw.derate = _ ∧ w.vw.quietTime = _
    rw [vw, if_pos holds]
    exact ⟨rfl, rfl⟩
  · show w.vw = _
    rw [vw, if_neg fails]
  · exact congrArg (fun u : State => { u with cw := s.cw }) frame

/-! ### SET SENSOR (R123) -/

/-- SET SENSOR's enable is 1. -/
abbrev Order.enables (o : Order) : Prop := o.p 0 = 1

/-- A channel enabled or disabled raises LEVEL under ANY (R117, R123). -/
theorem setSensorOn_getLsbD (o : Order) (s : State) (i : Fin 8) (k : Nat) :
    (setSensorOn o s i).rn.notice.getLsbD k = true ↔
      s.rn.notice.getLsbD k = true ∨ (k = 6 ∧ s.rn.levelAny = true ∧ ¬((s.vw.channels.get i).level ≠ .disabled ↔ o.enables)) := by
  have same : (s.vw.channels.get i).enabled = (o.p 0 == 1) ↔ ((s.vw.channels.get i).level ≠ .disabled ↔ o.enables) := by
    rw [Bool.eq_iff_iff, SensorChannel.enabled_iff, beq_iff_eq]
  unfold setSensorOn
  dsimp only
  split
  case isTrue still => simp [same.1 still]
  case isFalse moved =>
    have changed := mt same.2 moved
    rw [State.notifyLevel_getLsbD]
    simp only [changed, Bool.false_or, Bool.or_eq_true, Bool.and_eq_true, decide_eq_true_eq, not_false_iff, and_true]
    tauto

/-- The latched results of the channels of a predicate are dropped (R110, R123). -/
def Evaluation.dropIf (e : Evaluation) (p : Fin 8 → Bool) : Evaluation :=
  { e with latched := e.latched.map fun l => { l with dropped := l.dropped || p l.channel } }

theorem Evaluation.dropIf_dropIf (e : Evaluation) (p q : Fin 8 → Bool) : (e.dropIf p).dropIf q = e.dropIf fun i => p i || q i := by
  simp [Evaluation.dropIf, Bool.or_assoc]

theorem Evaluation.dropIf_false (e : Evaluation) : (e.dropIf fun _ => false) = e := by
  simp [Evaluation.dropIf]

theorem Evaluation.drop_eq (e : Evaluation) (j : Fin 8) : e.drop j = e.dropIf fun i => decide (i = j) := by
  unfold Evaluation.drop Evaluation.dropIf
  congr 2
  funext l
  by_cases h : l.channel = j <;> simp [h]

/-- A channel that SET SENSOR disables drops its latched result. -/
theorem setSensorOn_evaluation (o : Order) (s : State) (j : Fin 8) :
    (setSensorOn o s j).vw.evaluation =
      s.vw.evaluation.map (·.dropIf fun i => decide (i = j ∧ (s.vw.channels.get j).level ≠ .disabled ∧ ¬o.enables)) := by
  have disables : ((s.vw.channels.get j).enabled && !(o.p 0 == 1)) = true ↔ (s.vw.channels.get j).level ≠ .disabled ∧ ¬o.enables := by
    rw [Bool.and_eq_true, SensorChannel.enabled_iff, Bool.not_eq_true', beq_eq_false_iff_ne]
  rw [setSensorOn_vw]
  dsimp only
  by_cases h : (s.vw.channels.get j).level ≠ .disabled ∧ ¬o.enables
  · rw [if_pos (disables.2 h)]
    simp only [h, not_false_iff, and_self, and_true, ne_eq, Evaluation.drop_eq]
  · rw [if_neg (mt disables.1 h)]
    simp only [h, and_false, decide_false, Evaluation.dropIf_false, Option.map_id']

/-- What the fold over distinct targets leaves of the channels, of the latched results and of the notices. -/
theorem setSensors_spec (o : Order) {targets : List (Fin 8)} (distinct : targets.Nodup) (s : State) :
    let t := targets.foldl (setSensorOn o) s
    (∀ i ∈ targets, t.vw.channels.get i = (s.vw.channels.get i).setBy o) ∧
    (t.vw.evaluation = s.vw.evaluation.map
      (·.dropIf fun i => decide (i ∈ targets ∧ (s.vw.channels.get i).level ≠ .disabled ∧ ¬o.enables))) ∧
    (∀ k, t.rn.notice.getLsbD k = true ↔
      s.rn.notice.getLsbD k = true ∨
        (k = 6 ∧ s.rn.levelAny = true ∧ ∃ i ∈ targets, ¬((s.vw.channels.get i).level ≠ .disabled ↔ o.enables))) := by
  induction targets generalizing s with
  | nil =>
    refine ⟨nofun, ?_, fun k => ?_⟩
    · simp [Evaluation.dropIf_false]
    · simp
  | cons j rest ih =>
    obtain ⟨fresh, distinct⟩ := List.nodup_cons.1 distinct
    obtain ⟨channels, evaluation, notice⟩ := ih distinct (setSensorOn o s j)
    have others : ∀ i ∈ rest, (setSensorOn o s j).vw.channels.get i = s.vw.channels.get i := fun i hi => by
      have other : i ≠ j := fun e => fresh (e ▸ hi)
      rw [setSensorOn_vw, Octet.get_set, if_neg other]
    have levelAny : (setSensorOn o s j).rn.levelAny = s.rn.levelAny := by rw [(setSensorOn_moves o s j).rn]
    refine ⟨fun i hi => ?_, ?_, fun k => ?_⟩
    · rw [List.foldl_cons]
      rcases List.mem_cons.1 hi with rfl | later
      · rw [(setSensors_keeps o rest _).2 i fresh, setSensorOn_vw, Octet.get_set, if_pos rfl]
      · rw [channels i later, others i later]
    · rw [List.foldl_cons, evaluation, setSensorOn_evaluation, Option.map_map]
      congr 1
      funext e
      rw [Function.comp_apply, Evaluation.dropIf_dropIf]
      congr 1
      funext i
      rw [← Bool.decide_or, decide_eq_decide]
      by_cases first : i = j
      · simp [first, fresh]
      · by_cases hi : i ∈ rest <;> simp [first, hi, others]
    · rw [List.foldl_cons, notice k, setSensorOn_getLsbD, levelAny, List.exists_mem_cons_iff]
      have same : (∃ i ∈ rest, ¬(((setSensorOn o s j).vw.channels.get i).level ≠ .disabled ↔ o.enables)) ↔
          ∃ i ∈ rest, ¬((s.vw.channels.get i).level ≠ .disabled ↔ o.enables) :=
        exists_congr fun i => and_congr_right fun hi => by rw [others i hi]
      rw [same]
      simp only [or_assoc, and_or_left]

/-! ### The target channels behind SET SENSOR -/

/-- A target channel by the value of the enable (R123). -/
theorem SensorChannel.setBy_eq (c : SensorChannel) (o : Order) :
    c.setBy o =
      { (if o.enables then
          if c.level ≠ .disabled then c
          else
            { c with
              level := .quiet, sumSq := 0, peak := 0, count := 0, gapped := false, faultSeen := false, lastRaw := none
              stuck := 0, up := 0, dn := 0, low := 0, below := 0, lastRms := 0, lastPeak := 0 }
        else if c.level ≠ .disabled then
          { c with
            level := .disabled, sumSq := 0, peak := 0, count := 0, gapped := false, faultSeen := false, up := 0, dn := 0
            low := 0, below := 0, lastRms := 0, lastPeak := 0, injection := none }
        else c) with
        group := if o.p 1 = 0 then .a else .b
        alertLevel := o.p 2
        dangerLevel := o.p 3
        hysteresis := o.p 4
        tripEnable := decide (o.p 5 = 1) } := by
  unfold SensorChannel.setBy SensorChannel.setEnable
  by_cases on : c.level ≠ .disabled
  · have enabled : c.enabled = true := c.enabled_iff.2 on
    by_cases enables : o.enables
    · rw [enabled, if_pos enables, if_pos on, beq_iff_eq.2 enables]
      rfl
    · rw [enabled, if_neg enables, if_pos on, beq_false_of_ne enables]
      rfl
  · have off : c.enabled = false := Bool.eq_false_iff.2 (mt c.enabled_iff.1 on)
    by_cases enables : o.enables
    · rw [off, if_pos enables, if_neg on, beq_iff_eq.2 enables]
      rfl
    · rw [off, if_neg enables, if_neg on, beq_false_of_ne enables]
      rfl

/-- The channels that a target of SET SENSOR names. -/
theorem targetSensors_distinct {c : Nat} (taken : c ≤ 8) :
    ∃ targets, targetSensors (Target.ofCode c) = some targets ∧ targets.Nodup ∧ ∀ i : Fin 8, i ∈ targets ↔ c = 8 ∨ c = i.val := by
  rw [targetSensors_ofCode (by omega)]
  by_cases all : c = 8
  · rw [dif_neg (by omega), if_pos all]
    exact ⟨_, rfl, by decide, fun i => by simp [all]⟩
  · rw [dif_pos (by omega)]
    refine ⟨_, rfl, List.nodup_singleton _, fun i => ?_⟩
    rw [List.mem_singleton, Fin.ext_iff]
    simp [all, eq_comm]

/-- SET SENSOR's effect on its targets, with VW's BLIND test (R119, R123). -/
def setSensors (o : Order) (targets : List (Fin 8)) (s : State) : State :=
  State.blindIf (targets.foldl (setSensorOn o) s) (trippableFault (targets.foldl (setSensorOn o) s) targets)

/-- A target is left trip-enabled in FAULT while the drive is live. -/
def State.LeftBlind (s t : State) (targets : List (Fin 8)) : Prop :=
  s.rc.drive.live = true ∧ ∃ i ∈ targets, (t.vw.channels.get i).tripEnable = true ∧ (t.vw.channels.get i).level = .fault

section
variable (o : Order) (targets : List (Fin 8)) (s : State)

theorem setSensors_channels : (setSensors o targets s).vw.channels = (targets.foldl (setSensorOn o) s).vw.channels := by
  unfold setSensors
  rw [State.blindIf_vw]
  split <;> rfl

theorem setSensors_moves : WatchMoves s (targets.foldl (setSensorOn o) s) :=
  foldl_keeps (P := WatchMoves s) (fun u i h => h.trans (setSensorOn_moves o u i)) targets .rfl

theorem setSensors_blinds :
    (trippableFault (targets.foldl (setSensorOn o) s) targets = true ∧ (targets.foldl (setSensorOn o) s).rc.drive.live = true) ↔
      s.LeftBlind (setSensors o targets s) targets := by
  unfold State.LeftBlind trippableFault
  rw [setSensors_channels, (setSensors_moves o targets s).rc, and_comm]
  simp

/-- What the targets' orders and the BLIND test leave but for the channels, the evaluation, derate, the quiet time and the notices. -/
theorem setSensors_frame :
    setSensors o targets s = { s with
      rn := { s.rn with notice := (setSensors o targets s).rn.notice }
      vw := { s.vw with
        channels := (setSensors o targets s).vw.channels, derate := (setSensors o targets s).vw.derate
        quietTime := (setSensors o targets s).vw.quietTime
        evaluation := (targets.foldl (setSensorOn o) s).vw.evaluation } } := by
  have moves : setSensors o targets s = _ := (setSensors_moves o targets s).trans (State.blindIf_moves _ _)
  have now : (setSensors o targets s).now = s.now := by simp [setSensors]
  have pt : (setSensors o targets s).pt = s.pt := by simp [setSensors]
  have vw : (setSensors o targets s).vw = { s.vw with
      channels := (setSensors o targets s).vw.channels, derate := (setSensors o targets s).vw.derate
      quietTime := (setSensors o targets s).vw.quietTime, evaluation := (targets.foldl (setSensorOn o) s).vw.evaluation } := by
    obtain ⟨kept, -⟩ := setSensors_keeps o targets s
    dsimp only at kept
    unfold setSensors
    rw [State.blindIf_vw, kept]
    split <;> rfl
  change setSensors o targets s = { s with
    now := (setSensors o targets s).now, vw := (setSensors o targets s).vw
    pt := { s.pt with table := (setSensors o targets s).pt.table }
    rn := { s.rn with notice := (setSensors o targets s).rn.notice } } at moves
  rw [now, vw, pt] at moves
  exact moves

/-- BLIND is established, with the quiet time 0, when a target is left trip-enabled in FAULT while the drive is live (R119, R123). -/
theorem setSensors_derate :
    (s.LeftBlind (setSensors o targets s) targets →
      (setSensors o targets s).vw.derate = .blind ∧ (setSensors o targets s).vw.quietTime = 0) ∧
    (¬s.LeftBlind (setSensors o targets s) targets →
      (setSensors o targets s).vw.derate = s.vw.derate ∧ (setSensors o targets s).vw.quietTime = s.vw.quietTime) := by
  obtain ⟨kept, -⟩ := setSensors_keeps o targets s
  dsimp only at kept
  have blinds := setSensors_blinds o targets s
  rw [← Bool.and_eq_true] at blinds
  have vw : (setSensors o targets s).vw = _ := State.blindIf_vw _ _
  refine ⟨fun left => ?_, fun safe => ?_⟩
  · rw [if_pos (blinds.2 left)] at vw
    rw [vw]
    exact ⟨rfl, rfl⟩
  · rw [if_neg (mt blinds.1 safe)] at vw
    rw [vw, kept]
    exact ⟨rfl, rfl⟩

variable {targets}

theorem setSensors_getLsbD (distinct : targets.Nodup) (k : Nat) :
    (setSensors o targets s).rn.notice.getLsbD k = true ↔
      s.rn.notice.getLsbD k = true ∨
      (k = 6 ∧ s.rn.levelAny = true ∧ ∃ i ∈ targets, ¬((s.vw.channels.get i).level ≠ .disabled ↔ o.enables)) ∨
      (k = 5 ∧ s.LeftBlind (setSensors o targets s) targets ∧ s.vw.derate ≠ .blind ∧ (s.vw.derate = .none ∨ s.rn.derateAny = true)) := by
  obtain ⟨-, -, notice⟩ := setSensors_spec o distinct s
  obtain ⟨kept, -⟩ := setSensors_keeps o targets s
  dsimp only at kept notice
  have derate : (targets.foldl (setSensorOn o) s).vw.derate = s.vw.derate := by rw [kept]
  have any : (targets.foldl (setSensorOn o) s).rn.derateAny = s.rn.derateAny := by rw [(setSensors_moves o targets s).rn]
  rw [← setSensors_blinds, setSensors, State.blindIf_getLsbD, derate, any, Bool.or_eq_true, notice k, or_assoc]
  simp only [Bool.and_eq_true, Bool.or_eq_true, decide_eq_true_eq, beq_iff_eq]
  rw [and_comm (b := k = 5), and_assoc]

end

/-- Settles O29. -/
theorem setSensorActsOnItsTargets : Obligations.SetSensorActsOnItsTargets := by
  intro s hr taken passes named was
  obtain ⟨targets, names, distinct, mem⟩ := targetSensors_distinct taken
  have target : targetSensors s.recordOrder.target = some targets := by rw [s.recordOrder_target, names]
  have done : RecordDone .setSensor s (setSensors s.recordOrder targets s.countRecord) _ :=
    hr.done (ownSetSensor_eq s.countRecord target) passes
  have par : ∀ i < 6, s.recordOrder.p i = s.par i := fun i hi => hr.par i (Nat.add_lt_add_right hi 2)
  obtain ⟨acted, evaluation, -⟩ := setSensors_spec s.recordOrder distinct s.countRecord
  obtain ⟨-, others⟩ := setSensors_keeps s.recordOrder targets s.countRecord
  have channels := setSensors_channels s.recordOrder targets s.countRecord
  have frame := setSensors_frame s.recordOrder targets s.countRecord
  have derate := setSensors_derate s.recordOrder targets s.countRecord
  have notice := setSensors_getLsbD s.recordOrder s.countRecord distinct
  rw [← channels] at acted others
  rw [evaluation] at frame
  generalize setSensors s.recordOrder targets s.countRecord = w at *
  have enables : s.recordOrder.enables ↔ s.par 0 = 1 := by rw [Order.enables, par 0 (by decide)]
  have disables : ¬s.recordOrder.enables ↔ s.par 0 = 0 := by
    have small : s.par 0 ≤ 1 := passes _ List.mem_cons_self
    rw [enables]
    omega
  have left : s.countRecord.LeftBlind w targets ↔ s.rc.drive.live = true ∧
      ∃ i, named i ∧ (w.vw.channels.get i).tripEnable = true ∧ (w.vw.channels.get i).level = .fault := by
    unfold State.LeftBlind
    simp only [mem]
    exact Iff.rfl
  have changed : (∃ i ∈ targets, ¬((s.vw.channels.get i).level ≠ .disabled ↔ s.recordOrder.enables)) ↔
      ∃ i, named i ∧ ¬(was i ↔ s.par 0 = 1) := by
    simp only [mem, enables]
    exact Iff.rfl
  refine ⟨_, { w with cw := s.cw }, exec_command .setSensor s, done, fun i other => others i (mt (mem i).1 other), fun i here => ?_,
    ⟨fun k word => ?_, fun blind => derate.1 (left.2 blind), fun safe => derate.2 (mt left.1 safe)⟩, ?_⟩
  · have channel := acted i ((mem i).2 here)
    rw [SensorChannel.setBy_eq, if_congr enables rfl rfl, par 1 (by decide), par 2 (by decide), par 3 (by decide), par 4 (by decide),
      par 5 (by decide)] at channel
    exact channel
  · rw [← left, ← changed, and_comm (b := s.rn.levelAny = true)]
    exact notice k
  · have dropped : (fun i => decide (i ∈ targets ∧ (s.countRecord.vw.channels.get i).level ≠ .disabled ∧ ¬s.recordOrder.enables)) =
        fun i => decide (named i ∧ was i ∧ s.par 0 = 0) := by
      funext i
      rw [decide_eq_decide, mem, disables]
      exact Iff.rfl
    rw [dropped] at frame
    exact congrArg (fun u : State => { u with cw := s.cw }) frame

end Sys2Proof.Machine

/-! The end of an evaluation (R110 to R120): the judgement of its blocks (O53), derate, the reports and the waiting frames (O54). -/

namespace Sys2Proof.Machine

/-! ### The judgement of one block (R111 to R115) -/

theorem Latched.judged_iff (l : Latched) : l.judged = true ↔ l.gapped = false ∧ l.dropped = false := by
  simp [Latched.judged]

/-- A block of a channel in FAULT (R110, R115). -/
theorem SensorChannel.judge_of_fault {c : SensorChannel} (fault : c.level = .fault) (v : VibrationWatch) (l : Latched) :
    c.judge v l =
      if l.faultSeen then { c with lastRms := l.rms, lastPeak := l.peak }
      else { c with lastRms := l.rms, lastPeak := l.peak, level := .quiet, up := 0, dn := 0, low := 0, below := 0 } := by
  unfold SensorChannel.judge
  rw [if_pos fault]
  rfl

/-- The counters behind a block, by its RMS (R113). -/
theorem SensorChannel.moveCounters_classify (c d : SensorChannel) (rms : Nat) :
    let high2 := c.dangerLevel ≤ rms
    let high := high2 ∨ c.alertLevel ≤ rms
    let isLow := ¬high ∧ rms < c.alertLevel - c.hysteresis
    d.moveCounters (c.classify rms) =
      { d with
        up := if high then min (d.up + 1) 65535 else 0
        dn := if high2 then min (d.dn + 1) 65535 else 0
        low := if isLow then min (d.low + 1) 65535 else 0
        below := if high2 then 0 else min (d.below + 1) 65535 } := by
  intro high2 high isLow
  unfold SensorChannel.classify
  by_cases danger : c.dangerLevel ≤ rms
  · rw [if_pos danger]
    simp only [isLow, high, high2, danger, SensorChannel.moveCounters]
    rfl
  rw [if_neg danger]
  by_cases alert : c.alertLevel ≤ rms
  · rw [if_pos alert]
    simp only [isLow, high, high2, danger, alert, SensorChannel.moveCounters]
    rfl
  rw [if_neg alert]
  by_cases mid : c.alertLevel - c.hysteresis ≤ rms
  · rw [if_pos mid]
    have notLow : ¬rms < c.alertLevel - c.hysteresis := not_lt.2 mid
    simp only [isLow, high, high2, danger, alert, notLow, SensorChannel.moveCounters]
    rfl
  · rw [if_neg mid]
    have low : rms < c.alertLevel - c.hysteresis := not_le.1 mid
    simp only [isLow, high, high2, danger, alert, low, SensorChannel.moveCounters]
    rfl

/-- The first row of R114 that applies. -/
theorem SensorChannel.nextLevel_eq (c : SensorChannel) (pa pcl pd : Nat) :
    c.nextLevel pa pcl pd =
      if (c.level = .quiet ∨ c.level = .alert) ∧ pd ≤ c.dn then .danger
      else if c.level = .quiet ∧ pa ≤ c.up then .alert
      else if c.level = .danger ∧ pcl ≤ c.below then .alert
      else if c.level = .alert ∧ pcl ≤ c.low then .quiet
      else c.level := by
  unfold SensorChannel.nextLevel
  cases level : c.level <;> simp

/-- A block of a channel that is not in FAULT (R111 to R114). -/
theorem SensorChannel.judge_of_live {c : SensorChannel} (live : c.level ≠ .fault) (v : VibrationWatch) (l : Latched) :
    let rms := (c.injection.map (·.value)).getD l.rms
    let high2 := c.dangerLevel ≤ rms
    let high := high2 ∨ c.alertLevel ≤ rms
    let isLow := ¬high ∧ rms < c.alertLevel - c.hysteresis
    let up := if high then min (c.up + 1) 65535 else 0
    let dn := if high2 then min (c.dn + 1) 65535 else 0
    let low := if isLow then min (c.low + 1) 65535 else 0
    let below := if high2 then 0 else min (c.below + 1) 65535
    c.judge v l =
      { c with
        lastRms := rms, lastPeak := l.peak, up := up, dn := dn, low := low, below := below
        injection := c.injection.bind fun j => if j.count ≤ 1 then none else some { j with count := j.count - 1 }
        level :=
          if (c.level = .quiet ∨ c.level = .alert) ∧ v.pd ≤ dn then .danger
          else if c.level = .quiet ∧ v.pa ≤ up then .alert
          else if c.level = .danger ∧ v.pcl ≤ below then .alert
          else if c.level = .alert ∧ v.pcl ≤ low then .quiet
          else c.level } := by
  intro rms high2 high isLow up dn low below
  have value : ∀ x, c.injection = x → rms = (x.map (·.value)).getD l.rms := fun x h => by rw [← h]
  unfold SensorChannel.judge
  rw [if_neg live]
  dsimp only
  rw [SensorChannel.moveCounters_classify, SensorChannel.nextLevel_eq]
  clear_value rms
  cases injection : c.injection with
  | none =>
    obtain rfl : rms = l.rms := value _ injection
    rfl
  | some j =>
    obtain rfl : rms = j.value := value _ injection
    rfl

/-- A judgement reads of the watch its settings alone. -/
theorem SensorChannel.judge_congr {v w : VibrationWatch} (pa : w.pa = v.pa) (pcl : w.pcl = v.pcl) (pd : w.pd = v.pd)
    (c : SensorChannel) (l : Latched) : c.judge w l = c.judge v l := by
  unfold SensorChannel.judge
  rw [pa, pcl, pd]

/-! ### The blocks of an evaluation (R110 step 1) -/

/-- Judging blocks of distinct channels judges each channel once, and moves the channels and the quiet time alone. -/
theorem State.judgeAll_channel {ls : List Latched} (distinct : (ls.map (·.channel)).Nodup) (s : State) (i : Fin 8) :
    ((∀ l ∈ ls, l.channel = i → l.judged = false) → (s.judgeAll ls).vw.channels.get i = s.vw.channels.get i) ∧
    (∀ l ∈ ls, l.channel = i → l.judged = true → (s.judgeAll ls).vw.channels.get i = (s.vw.channels.get i).judge s.vw l) := by
  induction ls generalizing s with
  | nil => exact ⟨fun _ => rfl, nofun⟩
  | cons k rest ih =>
    rw [List.map_cons, List.nodup_cons] at distinct
    obtain ⟨fresh, distinct⟩ := distinct
    obtain ⟨unjudged, judged⟩ := ih distinct (s.judgeBlock k)
    have settings := (s.judgeBlock_vw k).1
    have eq : s.judgeAll (k :: rest) = (s.judgeBlock k).judgeAll rest := rfl
    have other : i ≠ k.channel → (s.judgeBlock k).vw.channels.get i = s.vw.channels.get i := fun ne => by
      rw [State.judgeBlock_channels]
      split
      · rw [Octet.get_set, if_neg ne]
      · rfl
    have none : k.channel = i → ∀ l ∈ rest, l.channel ≠ i := fun e l hl here =>
      fresh (List.mem_map.2 ⟨l, hl, here.trans e.symm⟩)
    rw [eq]
    refine ⟨fun all => ?_, fun l hl here is => ?_⟩
    · rw [unjudged fun l hl => all l (List.mem_cons_of_mem _ hl), State.judgeBlock_channels]
      by_cases e : k.channel = i
      · rw [if_neg (by simp [all k List.mem_cons_self e])]
      · rw [← State.judgeBlock_channels]
        exact other (Ne.symm e)
    · rcases List.mem_cons.1 hl with rfl | later
      · rw [unjudged fun m hm e => absurd e (none here m hm), State.judgeBlock_channels, if_pos is, here, Octet.get_set, if_pos rfl]
      · have ne : i ≠ k.channel := fun e => none e.symm l later here
        rw [judged l later here is, other ne]
        refine SensorChannel.judge_congr ?_ ?_ ?_ _ _ <;> rw [settings]

/-! ### What the later steps leave of the channels -/

theorem State.moveAlertTime_channels (s : State) : s.moveAlertTime.vw.channels = s.vw.channels := by
  obtain ⟨-, -, -, -, -, -, -, channels⟩ := s.moveAlertTime_same
  exact channels

theorem State.moveQuietTime_channels (s : State) : s.moveQuietTime.vw.channels = s.vw.channels := by
  obtain ⟨-, -, -, -, -, -, -, channels⟩ := s.moveQuietTime_same
  exact channels

theorem State.evaluated_channels (s : State) (e : Evaluation) :
    (s.evaluated e).vw.channels = ((s.reach e.due).judgeAll e.latched).vw.channels := by
  unfold State.evaluated
  dsimp only
  split
  · rw [State.moveQuietTime_channels, State.moveAlertTime_channels]
  · rfl

theorem State.dangersReported_vw (s : State) (e : Evaluation) : (s.dangersReported e).vw = (s.evaluated e).vw :=
  State.dangersReported_of (P := fun u => u.vw = (s.evaluated e).vw) rfl fun u c h => by simpa using h

theorem State.judgeAll_fifo (s : State) (ls : List Latched) : (s.judgeAll ls).vw.fifo = s.vw.fifo :=
  foldl_keeps (P := fun u : State => u.vw.fifo = s.vw.fifo) (fun u l h => ((u.judgeBlock_fifo l).1).trans h) ls rfl

theorem State.evaluated_fifo (s : State) (e : Evaluation) : (s.evaluated e).vw.fifo = s.vw.fifo := by
  have judged : ((s.reach e.due).judgeAll e.latched).vw.fifo = s.vw.fifo := State.judgeAll_fifo _ _
  unfold State.evaluated
  dsimp only
  split
  · obtain ⟨alert, -⟩ := State.moveAlertTime_same ((s.reach e.due).judgeAll e.latched)
    obtain ⟨quiet, -⟩ := State.moveQuietTime_same ((s.reach e.due).judgeAll e.latched).moveAlertTime
    exact (quiet.trans alert).trans judged
  · exact judged

theorem State.evaluated_now (s : State) (e : Evaluation) : (s.evaluated e).now = max s.now e.due := by
  unfold State.evaluated
  dsimp only
  split <;> simp

theorem State.dangersReported_now (s : State) (e : Evaluation) : (s.dangersReported e).now = max s.now e.due :=
  State.dangersReported_of (P := fun u => u.now = max s.now e.due) (s.evaluated_now e) fun u c h => by simpa using h

/-- The end of an evaluation behind which no frame waits (R110 step 4). -/
theorem State.evaluationEnds_of_empty {s : State} {e : Evaluation} (evaluating : s.vw.evaluation = some e) (empty : s.vw.fifo = []) :
    s.evaluationEnds = { s.dangersReported e with vw := { (s.evaluated e).vw with fifo := [], evaluation := none } } := by
  rw [State.evaluationEnds_eq evaluating, State.dangersReported_vw, State.evaluated_fifo, empty]
  rfl

/-- Settles O53. -/
theorem evaluationJudgesItsBlocks : Obligations.EvaluationJudgesItsBlocks := by
  intro s e i evaluating empty distinct c
  have ends := State.evaluationEnds_of_empty evaluating empty
  have channels : s.evaluationEnds.vw.channels = ((s.reach e.due).judgeAll e.latched).vw.channels := by
    rw [ends]
    exact s.evaluated_channels e
  obtain ⟨unjudged, judged⟩ := State.judgeAll_channel distinct (s.reach e.due) i
  refine ⟨_, rfl, ?_, ?_, fun none => ?_, fun l hl here ungapped kept => ?_⟩
  · show s.evaluationEnds.vw.evaluation = _
    rw [ends]
  · show s.evaluationEnds.now = _
    rw [ends]
    exact s.dangersReported_now e
  · show s.evaluationEnds.vw.channels.get i = _
    rw [channels]
    refine unjudged fun l hl here => Bool.eq_false_iff.2 fun is => ?_
    obtain ⟨ungapped, kept⟩ := l.judged_iff.1 is
    rcases none l hl here with gapped | dropped
    · simp [gapped] at ungapped
    · simp [dropped] at kept
  · show (c.level = .fault → s.evaluationEnds.vw.channels.get i = _) ∧ (c.level ≠ .fault → s.evaluationEnds.vw.channels.get i = _)
    rw [channels, judged l hl here (l.judged_iff.2 ⟨ungapped, kept⟩)]
    have rms : l.rms = min (Nat.sqrt (l.sumSq / l.n)) 32767 := min_isqrt _
    rw [← rms]
    exact ⟨fun fault => SensorChannel.judge_of_fault fault _ l, fun live => SensorChannel.judge_of_live live _ l⟩

end Sys2Proof.Machine

/-! The end of an evaluation (R110): the waiting frames apart from the rest, the alert and quiet times, the notices and the reports
(O54). -/

namespace Sys2Proof.Machine

/-! ### The stages as equations (R110, R117, R118, R120) -/

/-- A level change that is no entry raises LEVEL under ANY alone (R117, R182). -/
theorem State.notifyLevel_fall (s : State) :
    s.notifyLevel false =
      { s with rn := { s.rn with notice := if s.rn.levelAny = true then s.rn.notice ||| 0x40#10 else s.rn.notice } } := by
  unfold State.notifyLevel State.notifyIf
  by_cases any : s.rn.levelAny = true
  · rw [if_pos (by simp [any]), if_pos any]
    rfl
  · rw [if_neg (by simp [any]), if_neg any]

/-- A judged block: its channel, the quiet time at an entry, and LEVEL at a change. -/
theorem State.judgeBlock_eq (s : State) (l : Latched) :
    let old := s.vw.channels.get l.channel
    let new := old.judge s.vw l
    s.judgeBlock l =
      if l.judged = true then
        { s with
          vw := { s.vw with
            channels := s.vw.channels.set l.channel new
            quietTime := if new.level ≠ old.level ∧ entryChange new.level = true then 0 else s.vw.quietTime }
          rn := { s.rn with
            notice := if new.level ≠ old.level ∧ (entryChange new.level = true ∨ s.rn.levelAny = true) then s.rn.notice ||| 0x40#10
              else s.rn.notice } }
      else s := by
  intro old new
  unfold State.judgeBlock
  refine if_congr Iff.rfl ?_ rfl
  show (if new.level = old.level then _ else if entryChange new.level = true then _ else _) = _
  split
  case isTrue same =>
    rw [if_neg (fun h => h.1 same), if_neg (fun h => h.1 same)]
  case isFalse moved =>
    split
    case isTrue entry =>
      rw [if_pos ⟨moved, entry⟩, if_pos ⟨moved, .inl entry⟩]
      rfl
    case isFalse fall =>
      rw [if_neg (fun h => fall h.2)]
      rw [State.notifyLevel_fall]
      have told : (new.level ≠ old.level ∧ (entryChange new.level = true ∨ s.rn.levelAny = true)) ↔ s.rn.levelAny = true :=
        ⟨fun h => h.2.resolve_left fall, fun any => ⟨moved, .inr any⟩⟩
      rw [if_congr told rfl rfl]

/-- The alert time that an effective evaluation moves to (R118). -/
def State.nextAlertTime (s : State) : Nat := if s.vw.alarmed then min (s.vw.alertTime + 1) 65535 else 0

theorem State.moveAlertTime_eq (s : State) :
    s.moveAlertTime =
      if s.vw.ld ≤ s.nextAlertTime ∧ s.vw.derate = .none then
        { s with
          vw := { s.vw with alertTime := s.nextAlertTime, derate := .alert, quietTime := 0 }
          rn := { s.rn with notice := s.rn.notice ||| 0x20#10 } }
      else { s with vw := { s.vw with alertTime := s.nextAlertTime } } := by
  unfold State.moveAlertTime
  show (if s.vw.ld ≤ s.nextAlertTime ∧ s.vw.derate = .none then
    State.zeroQuiet (State.setDerate { s with vw := { s.vw with alertTime := s.nextAlertTime } } .alert) else _) = _
  split
  case isTrue establishes =>
    rw [State.setDerate_eq]
    dsimp only
    rw [establishes.2, if_pos ⟨nofun, .inl rfl⟩]
    rfl
  case isFalse => rfl

/-- The quiet time that the quiet condition moves to (R120). -/
def State.nextQuietTime (s : State) : Nat := min (s.vw.quietTime + 1) 65535

theorem State.moveQuietTime_eq (s : State) :
    s.moveQuietTime =
      if s.vw.derate = .none then s
      else if s.vw.quietCondition = true then
        if s.vw.lr ≤ s.nextQuietTime then
          { s with
            vw := { s.vw with derate := .none, quietTime := 0 }
            rn := { s.rn with notice := if s.rn.derateAny = true then s.rn.notice ||| 0x20#10 else s.rn.notice } }
        else { s with vw := { s.vw with quietTime := s.nextQuietTime } }
      else { s with vw := { s.vw with quietTime := 0 } } := by
  unfold State.moveQuietTime
  split
  · rfl
  case isFalse established =>
  split
  · show (if s.vw.lr ≤ s.nextQuietTime then
      State.zeroQuiet (State.setDerate { s with vw := { s.vw with quietTime := s.nextQuietTime } } .none) else _) = _
    split
    · rw [State.setDerate_eq]
      dsimp only
      have told : s.vw.derate ≠ .none ∧ (s.vw.derate = .none ∨ s.rn.derateAny = true) ↔ s.rn.derateAny = true := by
        simp [established]
      rw [if_congr told rfl rfl]
      rfl
    · rfl
  · rfl

/-! ### The queue of the arithmetic unit -/

/-- The state with other waiting frames and another evaluation. -/
def State.withQueue (s : State) (frames : List SampleFrame) (e : Option Evaluation) : State :=
  { s with vw := { s.vw with fifo := frames, evaluation := e } }

section
variable (s : State) (frames : List SampleFrame) (e : Option Evaluation)

/-- Judging a block reads and moves nothing of the queue. -/
theorem State.judgeBlock_withQueue (l : Latched) : (s.withQueue frames e).judgeBlock l = (s.judgeBlock l).withQueue frames e := by
  rw [State.judgeBlock_eq, State.judgeBlock_eq]
  split <;> rfl

theorem State.judgeAll_withQueue (ls : List Latched) : (s.withQueue frames e).judgeAll ls = (s.judgeAll ls).withQueue frames e := by
  unfold State.judgeAll
  induction ls generalizing s with
  | nil => rfl
  | cons l ls ih => rw [List.foldl_cons, List.foldl_cons, State.judgeBlock_withQueue, ih]

theorem State.moveAlertTime_withQueue : (s.withQueue frames e).moveAlertTime = s.moveAlertTime.withQueue frames e := by
  rw [State.moveAlertTime_eq, State.moveAlertTime_eq]
  show (if s.vw.ld ≤ s.nextAlertTime ∧ s.vw.derate = .none then _ else _) = _
  split <;> rfl

theorem State.moveQuietTime_withQueue : (s.withQueue frames e).moveQuietTime = s.moveQuietTime.withQueue frames e := by
  rw [State.moveQuietTime_eq, State.moveQuietTime_eq]
  show (if s.vw.derate = .none then _ else if s.vw.quietCondition = true then _ else _) = _
  split
  · rfl
  split
  · show (if s.vw.lr ≤ s.nextQuietTime then _ else _) = _
    split <;> rfl
  · rfl

/-- A report reads and moves nothing of the queue. -/
theorem State.report_withQueue (c : Cause) : (s.withQueue frames e).report c = (s.report c).withQueue frames e := by
  have slot : (s.withQueue frames e).chooseSlot = s.chooseSlot := rfl
  have taken : (s.withQueue frames e).enterTripped.chooseSlot = s.chooseSlot := rfl
  have taken' : s.enterTripped.chooseSlot = s.chooseSlot := rfl
  unfold State.report
  show (if s.rc.drive = .tripped then _ else _) = _
  split
  · rfl
  · unfold State.firstCause State.takeSlot
    simp only [slot, taken, taken']
    cases s.chooseSlot <;> rfl

theorem State.evaluated_withQueue (ev : Evaluation) : (s.withQueue frames e).evaluated ev = (s.evaluated ev).withQueue frames e := by
  have judged : ((s.withQueue frames e).reach ev.due).judgeAll ev.latched = ((s.reach ev.due).judgeAll ev.latched).withQueue frames e :=
    State.judgeAll_withQueue (s.reach ev.due) frames e ev.latched
  unfold State.evaluated
  rw [judged]
  dsimp only
  split
  · rw [State.moveAlertTime_withQueue, State.moveQuietTime_withQueue]
  · rfl

theorem State.reports_withQueue (causes : List Cause) :
    causes.foldl State.report (s.withQueue frames e) = (causes.foldl State.report s).withQueue frames e := by
  induction causes generalizing s with
  | nil => rfl
  | cons c causes ih => rw [List.foldl_cons, List.foldl_cons, State.report_withQueue, ih]

end

/-! ### The reports of an evaluation (R116) -/

/-- The trip-enabled channels that an evaluation takes into DANGER while the drive is live. -/
def State.dangerous (s : State) (e : Evaluation) : List (Fin 8) :=
  if s.rc.drive.live then s.vw.dangers (s.evaluated e).vw else []

theorem State.reportDangers_eq (s : State) (l : List (Fin 8)) : s.reportDangers l = (l.map .vibrationDanger).foldl State.report s := by
  rw [State.reportDangers, List.foldl_map]

theorem VibrationWatch.dangers_congr {v w w' : VibrationWatch} (same : w.channels = w'.channels) : v.dangers w = v.dangers w' := by
  unfold VibrationWatch.dangers
  rw [same]

theorem State.dangersReported_eq (s : State) (e : Evaluation) :
    s.dangersReported e = ((s.dangerous e).map .vibrationDanger).foldl State.report (s.evaluated e) := by
  have live : (s.evaluated e).rc = s.rc := (s.evaluated_moves e).rc
  unfold State.dangersReported State.dangerous
  dsimp only
  rw [live, State.reportDangers_eq, VibrationWatch.dangers_congr (s.evaluated_channels e).symm]
  split <;> rfl

theorem State.dangerous_withQueue (s : State) (frames : List SampleFrame) (q : Option Evaluation) (e : Evaluation) :
    (s.withQueue frames q).dangerous e = s.dangerous e := by
  unfold State.dangerous
  rw [State.evaluated_withQueue]
  rfl

theorem State.dangersReported_withQueue (s : State) (frames : List SampleFrame) (q : Option Evaluation) (e : Evaluation) :
    (s.withQueue frames q).dangersReported e = (s.dangersReported e).withQueue frames q := by
  rw [State.dangersReported_eq, State.dangersReported_eq, State.dangerous_withQueue, State.evaluated_withQueue, State.reports_withQueue]

/-! ### The waiting frames (R103, R110 step 4) -/

/-- The unit takes the frames given, whatever waited. -/
theorem State.drain_withQueue (s : State) (frames : List SampleFrame) (fs : List SampleFrame) :
    (s.withQueue frames none).drain fs = State.drain { s with vw := { s.vw with evaluation := none } } fs := by
  cases fs <;> rfl

theorem State.evaluationEnds_alone {s : State} {e : Evaluation} (evaluating : s.vw.evaluation = some e) (empty : s.vw.fifo = []) :
    s.evaluationEnds = (s.dangersReported e).withQueue [] none := by
  rw [State.evaluationEnds_of_empty evaluating empty, ← State.dangersReported_vw]
  rfl

/-- The frames that wait are taken behind the evaluation's end. -/
theorem State.evaluationEnds_frames {s : State} {e : Evaluation} (evaluating : s.vw.evaluation = some e) :
    FramesTaken s.vw.fifo (State.evaluationEnds { s with vw := { s.vw with fifo := [] } }) s.evaluationEnds := by
  have empty : { s with vw := { s.vw with fifo := [] } } = s.withQueue [] (some e) := by rw [← evaluating]; rfl
  have alone : (s.withQueue [] (some e)).evaluationEnds = (s.dangersReported e).withQueue [] none := by
    rw [State.evaluationEnds_alone (s := s.withQueue [] (some e)) rfl rfl, State.dangersReported_withQueue]
    rfl
  have fifo : (s.dangersReported e).vw.fifo = s.vw.fifo := by rw [State.dangersReported_vw, State.evaluated_fifo]
  have taken := State.drain_spec (s := (s.dangersReported e).withQueue [] none) rfl s.vw.fifo
  rw [State.drain_withQueue] at taken
  rw [empty, alone, State.evaluationEnds_eq evaluating, fifo]
  exact taken

/-! ### The blocks judged: quiet time and notices (R117, R120) -/

/-- A channel's level has moved. -/
abbrev State.Moved (s t : State) (i : Fin 8) : Prop := (t.vw.channels.get i).level ≠ (s.vw.channels.get i).level

/-- A move of a level in two steps, the first of which or the second leaves each channel. -/
theorem State.exists_moved_trans {s u t : State} (once : ∀ i, u.vw.channels.get i = s.vw.channels.get i ∨ t.vw.channels.get i = u.vw.channels.get i)
    (p : Level → Prop) :
    (∃ i, s.Moved t i ∧ p (t.vw.channels.get i).level) ↔
      (∃ i, s.Moved u i ∧ p (u.vw.channels.get i).level) ∨ ∃ i, u.Moved t i ∧ p (t.vw.channels.get i).level := by
  rw [← exists_or]
  refine exists_congr fun i => ?_
  rcases once i with same | same
  · simp [same]
  · simp [same]

/-- A judged block moves at most the level of its channel. -/
theorem State.exists_moved_judgeBlock (s : State) (l : Latched) (p : Level → Prop) :
    (∃ i, s.Moved (s.judgeBlock l) i ∧ p ((s.judgeBlock l).vw.channels.get i).level) ↔
      l.judged = true ∧
        ((s.vw.channels.get l.channel).judge s.vw l).level ≠ (s.vw.channels.get l.channel).level ∧
        p ((s.vw.channels.get l.channel).judge s.vw l).level := by
  by_cases judged : l.judged = true
  · have channel : ∀ i, (s.judgeBlock l).vw.channels.get i =
        if i = l.channel then (s.vw.channels.get l.channel).judge s.vw l else s.vw.channels.get i := fun i => by
      rw [State.judgeBlock_channels, if_pos judged, Octet.get_set]
    have here := (channel l.channel).trans (if_pos rfl)
    refine ⟨fun ⟨i, moved, holds⟩ => ?_, fun ⟨_, moved, holds⟩ => ⟨l.channel, ?_, ?_⟩⟩
    · by_cases same : i = l.channel
      · subst same
        rw [State.Moved, here] at moved
        rw [here] at holds
        exact ⟨judged, moved, holds⟩
      · rw [State.Moved, channel i, if_neg same] at moved
        exact absurd rfl moved
    · rwa [State.Moved, here]
    · rwa [here]
  · have still : (s.judgeBlock l).vw.channels = s.vw.channels := by rw [State.judgeBlock_channels, if_neg judged]
    exact ⟨fun ⟨_, moved, _⟩ => absurd (by rw [still]) moved, fun h => absurd h.1 judged⟩

theorem State.judgeBlock_quietTime (s : State) (l : Latched) :
    (s.judgeBlock l).vw.quietTime =
      if ∃ i, s.Moved (s.judgeBlock l) i ∧ entryChange ((s.judgeBlock l).vw.channels.get i).level = true then 0 else s.vw.quietTime := by
  rw [if_congr (s.exists_moved_judgeBlock l (entryChange · = true)) rfl rfl, State.judgeBlock_eq]
  by_cases judged : l.judged = true
  · simp [judged]
  · simp [judged]

theorem State.judgeBlock_getLsbD (s : State) (l : Latched) (k : Nat) :
    (s.judgeBlock l).rn.notice.getLsbD k = true ↔
      s.rn.notice.getLsbD k = true ∨ (k = 6 ∧ ∃ i, s.Moved (s.judgeBlock l) i ∧
        (entryChange ((s.judgeBlock l).vw.channels.get i).level = true ∨ s.rn.levelAny = true)) := by
  have level : ∀ n : BitVec 10, (n ||| 0x40#10).getLsbD k = true ↔ n.getLsbD k = true ∨ k = 6 := fun n => by
    rw [BitVec.getLsbD_or, show (0x40#10) = Notice.level.mark from rfl, Notice.mark_getLsbD, Bool.or_eq_true, decide_eq_true_eq]
    exact Iff.rfl
  rw [s.exists_moved_judgeBlock l fun v => entryChange v = true ∨ s.rn.levelAny = true, State.judgeBlock_eq]
  by_cases judged : l.judged = true
  · rw [if_pos judged]
    dsimp only
    split
    case isTrue told => rw [level, and_iff_left ⟨judged, told⟩]
    case isFalse untold => simp only [untold, and_false, or_false]
  · rw [if_neg judged]
    exact ⟨.inl, fun h => h.resolve_right fun ⟨_, is, _⟩ => judged is⟩

/-- Judging blocks of distinct channels moves levels, with LEVEL for an entry and under ANY for a fall, and the quiet time to 0 at an
entry. -/
theorem State.judgeAll_spec {ls : List Latched} (distinct : (ls.map (·.channel)).Nodup) (s : State) :
    (s.judgeAll ls).vw.quietTime =
      (if ∃ i, s.Moved (s.judgeAll ls) i ∧ entryChange ((s.judgeAll ls).vw.channels.get i).level = true then 0 else s.vw.quietTime) ∧
    ∀ k, (s.judgeAll ls).rn.notice.getLsbD k = true ↔
      s.rn.notice.getLsbD k = true ∨ (k = 6 ∧ ∃ i, s.Moved (s.judgeAll ls) i ∧
        (entryChange ((s.judgeAll ls).vw.channels.get i).level = true ∨ s.rn.levelAny = true)) := by
  induction ls generalizing s with
  | nil =>
    have none : ∀ i, ¬s.Moved (s.judgeAll []) i := fun i moved => moved rfl
    simp only [none, false_and, exists_false, if_false, and_false, or_false]
    exact ⟨rfl, fun k => Iff.rfl⟩
  | cons l rest ih =>
    rw [List.map_cons, List.nodup_cons] at distinct
    obtain ⟨fresh, distinct⟩ := distinct
    obtain ⟨quiet, notice⟩ := ih distinct (s.judgeBlock l)
    have eq : s.judgeAll (l :: rest) = (s.judgeBlock l).judgeAll rest := rfl
    have any : (s.judgeBlock l).rn.levelAny = s.rn.levelAny := by rw [(s.judgeBlock_moves l).rn]
    have once : ∀ i, (s.judgeBlock l).vw.channels.get i = s.vw.channels.get i ∨
        ((s.judgeBlock l).judgeAll rest).vw.channels.get i = (s.judgeBlock l).vw.channels.get i := fun i => by
      by_cases here : i = l.channel
      · refine .inr ((State.judgeAll_channel distinct _ i).1 fun m hm e => ?_)
        exact absurd (List.mem_map.2 ⟨m, hm, e.trans here⟩) fresh
      · left
        rw [State.judgeBlock_channels]
        split
        · rw [Octet.get_set, if_neg here]
        · rfl
    rw [eq]
    refine ⟨?_, fun k => ?_⟩
    · rw [if_congr (State.exists_moved_trans once (entryChange · = true)) rfl rfl, quiet, State.judgeBlock_quietTime, ite_or]
      split_ifs <;> rfl
    · rw [State.exists_moved_trans once fun v => entryChange v = true ∨ s.rn.levelAny = true, notice k, State.judgeBlock_getLsbD, any,
        or_assoc, and_or_left]

/-- A judgement that moves a level leaves QUIET, or enters ALERT or DANGER (R114, R115). -/
theorem SensorChannel.judge_entry {c : SensorChannel} {v : VibrationWatch} {l : Latched} (moved : (c.judge v l).level ≠ c.level) :
    entryChange (c.judge v l).level = true ↔ (c.judge v l).level ≠ .quiet := by
  cases level : (c.judge v l).level with
  | disabled => exact absurd (level.trans (SensorChannel.judge_disabled level).symm) moved
  | fault => exact absurd (level.trans (SensorChannel.judge_fault level).symm) moved
  | quiet => decide
  | alert => decide
  | danger => decide

theorem State.judgeAll_entry {ls : List Latched} (distinct : (ls.map (·.channel)).Nodup) (s : State) {i : Fin 8}
    (moved : s.Moved (s.judgeAll ls) i) :
    entryChange ((s.judgeAll ls).vw.channels.get i).level = true ↔ ((s.judgeAll ls).vw.channels.get i).level ≠ .quiet := by
  obtain ⟨unjudged, judged⟩ := State.judgeAll_channel distinct s i
  by_cases some : ∃ l ∈ ls, l.channel = i ∧ l.judged = true
  · obtain ⟨l, hl, here, is⟩ := some
    have channel := judged l hl here is
    rw [State.Moved, channel] at moved
    rw [channel]
    exact SensorChannel.judge_entry moved
  · have none : ∀ l ∈ ls, l.channel = i → l.judged = false := fun l hl here =>
      Bool.eq_false_iff.2 fun is => some ⟨l, hl, here, is⟩
    exact absurd (congrArg SensorChannel.level (unjudged none)) moved

/-- An evaluation without a block to judge leaves the state but for the time base (R110). -/
theorem State.evaluated_of_none (s : State) {e : Evaluation} (none : e.latched.any Latched.judged = false) :
    s.evaluated e = s.reach e.due := by
  have still : ∀ ls : List Latched, ls.any Latched.judged = false → ∀ u : State, u.judgeAll ls = u := by
    intro ls
    induction ls with
    | nil => exact fun _ _ => rfl
    | cons l rest ih =>
      intro none u
      rw [List.any_cons, Bool.or_eq_false_iff] at none
      have first : u.judgeBlock l = u := by rw [State.judgeBlock_eq, if_neg (by simp [none.1])]
      show (u.judgeBlock l).judgeAll rest = u
      rw [first, ih none.2]
  unfold State.evaluated
  rw [none, still _ none]
  rfl

theorem State.evaluated_of_some (s : State) {e : Evaluation} (some : e.latched.any Latched.judged = true) :
    s.evaluated e = ((s.reach e.due).judgeAll e.latched).moveAlertTime.moveQuietTime := if_pos some

/-! ### The alert and quiet times (R118, R120) -/

theorem VibrationWatch.alarmed_iff (v : VibrationWatch) :
    v.alarmed = true ↔ ∃ i, (v.channels.get i).level = .alert ∨ (v.channels.get i).level = .danger := by
  simp [VibrationWatch.alarmed, Octet.mem_toList]

/-- Derate is established with reason ALERT (R118). -/
abbrev State.AlertDue (s : State) : Prop := s.vw.derate = .none ∧ s.vw.ld ≤ s.nextAlertTime

/-- What an effective evaluation leaves of the watch's times and of derate, by what it finds. -/
theorem State.moveTimes_spec (s : State) :
    let t := s.moveAlertTime.moveQuietTime
    t.vw.alertTime = s.nextAlertTime ∧
    (s.vw.derate = .none → ¬s.AlertDue → t.vw.derate = .none ∧ t.rn = s.rn) ∧
    (s.AlertDue → ¬s.vw.quietCondition = true →
      t.vw.derate = .alert ∧ t.vw.quietTime = 0 ∧ t.rn = { s.rn with notice := s.rn.notice ||| 0x20#10 }) ∧
    (s.vw.derate ≠ .none → ¬s.vw.quietCondition = true → t.vw.derate = s.vw.derate ∧ t.vw.quietTime = 0 ∧ t.rn = s.rn) ∧
    (s.vw.derate ≠ .none → s.vw.quietCondition = true → s.nextQuietTime < s.vw.lr →
      t.vw.derate = s.vw.derate ∧ t.vw.quietTime = s.nextQuietTime ∧ t.rn = s.rn) ∧
    (s.vw.derate ≠ .none → s.vw.quietCondition = true → s.vw.lr ≤ s.nextQuietTime →
      t.vw.derate = .none ∧ t.vw.quietTime = 0 ∧
        t.rn = { s.rn with notice := if s.rn.derateAny = true then s.rn.notice ||| 0x20#10 else s.rn.notice }) := by
  intro t
  have alertTime : t.vw.alertTime = s.nextAlertTime := by
    have first : s.moveAlertTime.vw.alertTime = s.nextAlertTime := by
      rw [State.moveAlertTime_eq]
      split <;> rfl
    rw [← first]
    show s.moveAlertTime.moveQuietTime.vw.alertTime = _
    rw [State.moveQuietTime_eq]
    split_ifs <;> rfl
  have last : ¬s.AlertDue → t = _ := fun idle =>
    (congrArg State.moveQuietTime (s.moveAlertTime_eq.trans (if_neg (mt And.symm idle)))).trans (State.moveQuietTime_eq _)
  refine ⟨alertTime, fun none idle => ?_, fun due loud => ?_, fun some loud => ?_, fun some quiet low => ?_, fun some quiet high => ?_⟩
  case refine_2 =>
    have alert := s.moveAlertTime_eq.trans (if_pos due.symm)
    have last : t = _ := (congrArg State.moveQuietTime alert).trans ((State.moveQuietTime_eq _).trans ((if_neg nofun).trans (if_neg loud)))
    rw [last]
    exact ⟨rfl, rfl, rfl⟩
  case refine_1 =>
    rw [(last idle).trans (if_pos none)]
    exact ⟨none, rfl⟩
  case refine_3 =>
    rw [(last fun due => some due.1).trans ((if_neg some).trans (if_neg loud))]
    exact ⟨rfl, rfl, rfl⟩
  case refine_4 =>
    rw [(last fun due => some due.1).trans ((if_neg some).trans ((if_pos quiet).trans (if_neg (not_le.2 low))))]
    exact ⟨rfl, rfl, rfl⟩
  case refine_5 =>
    rw [(last fun due => some due.1).trans ((if_neg some).trans ((if_pos quiet).trans (if_pos high)))]
    exact ⟨rfl, rfl, rfl⟩

/-! ### The reports (R116, R128) -/

theorem VibrationWatch.dangers_eq (v w : VibrationWatch) :
    v.dangers w = sensorNumbers.filter fun i => decide ((v.channels.get i).level ≠ .danger ∧
      (w.channels.get i).level = .danger ∧ (w.channels.get i).tripEnable = true) := by
  refine List.filter_congr fun i _ => ?_
  rw [Bool.eq_iff_iff, decide_eq_true_eq]
  simp only [Bool.and_eq_true, bne_iff_ne, beq_iff_eq, and_assoc]

theorem State.dangerous_eq (s : State) (e : Evaluation) :
    s.dangerous e = sensorNumbers.filter fun i => decide (s.rc.drive.live = true ∧ (s.vw.channels.get i).level ≠ .danger ∧
      ((s.evaluated e).vw.channels.get i).level = .danger ∧ ((s.evaluated e).vw.channels.get i).tripEnable = true) := by
  unfold State.dangerous
  split
  case isTrue live => simp only [VibrationWatch.dangers_eq, live, true_and]
  case isFalse rests => simp [rests]

/-- Behind reports of causes, each of them is latched, and the first is first-out when the drive was not TRIPPED. -/
theorem State.reports_latch (l : List Cause) (s : State) :
    (s.rc.drive = .tripped → (l.foldl State.report s).rc.drive = .tripped ∧
      (∀ d ∈ s.tu.latched, d ∈ (l.foldl State.report s).tu.latched) ∧ (l.foldl State.report s).tu.firstOut = s.tu.firstOut) ∧
    (∀ c ∈ l, (l.foldl State.report s).rc.drive = .tripped ∧ c ∈ (l.foldl State.report s).tu.latched) := by
  induction l generalizing s with
  | nil => exact ⟨fun tripped => ⟨tripped, fun _ h => h, rfl⟩, nofun⟩
  | cons c rest ih =>
    obtain ⟨kept, latches⟩ := ih (s.report c)
    obtain ⟨still, more, first⟩ := kept (s.report_drive c)
    refine ⟨fun tripped => ?_, fun d hd => ?_⟩
    · obtain ⟨-, before, out⟩ := State.reportIf_of_tripped tripped true c
      exact ⟨still, fun d hd => more d (before d hd), first.trans out⟩
    · rcases List.mem_cons.1 hd with rfl | later
      · exact ⟨still, more d (s.mem_report d)⟩
      · exact latches d later

theorem State.reports_firstOut {s : State} (first : s.rc.drive ≠ .tripped) (c : Cause) (rest : List Cause) :
    ((c :: rest).foldl State.report s).tu.firstOut = some c := by
  obtain ⟨-, -, out⟩ := (State.reports_latch rest (s.report c)).1 (s.report_drive c)
  obtain ⟨-, -, latched⟩ := State.reportIf_of_true (s := s) (b := true) rfl c
  exact out.trans (latched first)

/-- The lowest sensor number that passes a test heads those that do. -/
theorem sensorNumbers_filter_head {p : Fin 8 → Bool} {i : Fin 8} (here : p i = true) (lowest : ∀ j < i, ¬p j = true) :
    ∃ rest, sensorNumbers.filter p = i :: rest := by
  have ascending : (sensorNumbers.filter p).Pairwise (· < ·) := List.Pairwise.filter _ (by decide)
  have mem : i ∈ sensorNumbers.filter p := List.mem_filter.2 ⟨mem_sensorNumbers i, here⟩
  cases found : sensorNumbers.filter p with
  | nil => simp [found] at mem
  | cons k rest =>
    rw [found] at ascending mem
    have head : p k = true := (List.mem_filter.1 (found ▸ List.mem_cons_self)).2
    rcases List.mem_cons.1 mem with rfl | later
    · exact ⟨rest, rfl⟩
    · exact absurd head (lowest k ((List.pairwise_cons.1 ascending).1 i later))

/-! ### What an evaluation leaves of the watch and of the rest -/

theorem State.evaluated_pt (s : State) (e : Evaluation) : (s.evaluated e).pt = s.pt := by
  unfold State.evaluated
  dsimp only
  split <;> simp

theorem State.judgeAll_vw (s : State) (ls : List Latched) :
    (s.judgeAll ls).vw = { s.vw with channels := (s.judgeAll ls).vw.channels, quietTime := (s.judgeAll ls).vw.quietTime } := by
  refine foldl_keeps (P := fun u : State => u.vw = { s.vw with channels := u.vw.channels, quietTime := u.vw.quietTime })
    (fun u l h => ?_) ls rfl
  obtain ⟨block, -⟩ := u.judgeBlock_vw l
  rw [block, h]

theorem State.moveTimes_vw (s : State) :
    s.moveAlertTime.moveQuietTime.vw = { s.vw with
      alertTime := s.moveAlertTime.moveQuietTime.vw.alertTime, derate := s.moveAlertTime.moveQuietTime.vw.derate
      quietTime := s.moveAlertTime.moveQuietTime.vw.quietTime } := by
  have alert : s.moveAlertTime.vw = { s.vw with
      alertTime := s.moveAlertTime.vw.alertTime, derate := s.moveAlertTime.vw.derate, quietTime := s.moveAlertTime.vw.quietTime } := by
    rw [State.moveAlertTime_eq]
    split <;> rfl
  have quiet : s.moveAlertTime.moveQuietTime.vw = { s.moveAlertTime.vw with
      derate := s.moveAlertTime.moveQuietTime.vw.derate, quietTime := s.moveAlertTime.moveQuietTime.vw.quietTime } := by
    rw [State.moveQuietTime_eq]
    split_ifs <;> rfl
  rw [quiet, alert]

theorem State.evaluated_vw (s : State) (e : Evaluation) :
    (s.evaluated e).vw = { s.vw with
      channels := (s.evaluated e).vw.channels, alertTime := (s.evaluated e).vw.alertTime, derate := (s.evaluated e).vw.derate
      quietTime := (s.evaluated e).vw.quietTime } := by
  have judged : ((s.reach e.due).judgeAll e.latched).vw = _ := State.judgeAll_vw (s.reach e.due) e.latched
  unfold State.evaluated
  dsimp only
  split
  · rw [State.moveTimes_vw, judged]
    rfl
  · rw [judged]
    rfl

/-- What an evaluation leaves but for the watch, the notices and the time base. -/
theorem State.evaluated_frame (s : State) (e : Evaluation) :
    s.evaluated e = { s with
      now := max s.now e.due, vw := (s.evaluated e).vw, rn := { s.rn with notice := (s.evaluated e).rn.notice } } := by
  have moves : s.evaluated e = _ := s.evaluated_moves e
  rw [s.evaluated_now, s.evaluated_pt] at moves
  exact moves

/-- The blocks judged before the times move: the settings, derate and the alert time stand. -/
theorem State.judgeAll_settings (s : State) (ls : List Latched) :
    (s.judgeAll ls).vw.derate = s.vw.derate ∧ (s.judgeAll ls).vw.alertTime = s.vw.alertTime ∧ (s.judgeAll ls).vw.ld = s.vw.ld ∧
      (s.judgeAll ls).vw.lr = s.vw.lr ∧ (s.judgeAll ls).vw.rx = s.vw.rx ∧ (s.judgeAll ls).rn.derateAny = s.rn.derateAny := by
  have any : (s.judgeAll ls).rn.derateAny = s.rn.derateAny := by rw [(s.judgeAll_moves ls).rn]
  rw [s.judgeAll_vw]
  exact ⟨rfl, rfl, rfl, rfl, rfl, any⟩

theorem VibrationWatch.quietCondition_iff' (v : VibrationWatch) :
    v.quietCondition = true ↔
      v.rx = .up ∧ ∀ i, (v.channels.get i).level = .disabled ∨ (v.channels.get i).level = .quiet := by
  rw [VibrationWatch.quietCondition_iff]
  refine and_congr_right fun _ => forall_congr' fun i => ?_
  rw [SensorChannel.enabled_iff, ← or_iff_not_imp_left]

/-- The blocks of an evaluation judged, at its end. -/
abbrev State.judgedBy (s : State) (e : Evaluation) : State := (s.reach e.due).judgeAll e.latched

/-- What the blocks judged give the times to move by, in terms of the state before and the channels after. -/
theorem State.judgedBy_times (s : State) {e : Evaluation} (distinct : (e.latched.map (·.channel)).Nodup) :
    let w := (s.evaluated e).vw
    let alert := if ∃ i, (w.channels.get i).level = .alert ∨ (w.channels.get i).level = .danger then min (s.vw.alertTime + 1) 65535 else 0
    let allQuiet := s.vw.rx = .up ∧ ∀ i, (w.channels.get i).level = .disabled ∨ (w.channels.get i).level = .quiet
    (s.judgedBy e).nextAlertTime = alert ∧ ((s.judgedBy e).AlertDue ↔ s.vw.derate = .none ∧ s.vw.ld ≤ alert) ∧
      ((s.judgedBy e).vw.quietCondition = true ↔ allQuiet) ∧
      (allQuiet → (s.judgedBy e).nextQuietTime = min (s.vw.quietTime + 1) 65535) := by
  intro w alert allQuiet
  have channels : w.channels = (s.judgedBy e).vw.channels := s.evaluated_channels e
  obtain ⟨derate, alertTime, ld, -, rx, -⟩ := State.judgeAll_settings (s.reach e.due) e.latched
  obtain ⟨quiet, -⟩ := State.judgeAll_spec distinct (s.reach e.due)
  have next : (s.judgedBy e).nextAlertTime = alert := by
    unfold State.nextAlertTime
    rw [alertTime]
    refine if_congr ?_ rfl rfl
    rw [VibrationWatch.alarmed_iff, channels]
  refine ⟨next, ?_, ?_, fun ⟨_, all⟩ => ?_⟩
  · rw [State.AlertDue, derate, ld, next]
    exact Iff.rfl
  · rw [VibrationWatch.quietCondition_iff', rx, ← channels]
    exact Iff.rfl
  · have none : ¬∃ i, (s.reach e.due).Moved (s.judgedBy e) i ∧ entryChange ((s.judgedBy e).vw.channels.get i).level = true := by
      rintro ⟨i, -, entry⟩
      rw [← channels] at entry
      rcases all i with level | level <;> (rw [level] at entry; cases entry)
    rw [if_neg none] at quiet
    unfold State.nextQuietTime
    rw [quiet]
    rfl

/-- The alert time, derate and the quiet time behind an effective evaluation (R118, R120). -/
theorem State.evaluated_times (s : State) {e : Evaluation} (some : e.latched.any Latched.judged = true)
    (distinct : (e.latched.map (·.channel)).Nodup) :
    let w := (s.evaluated e).vw
    let alert := if ∃ i, (w.channels.get i).level = .alert ∨ (w.channels.get i).level = .danger then min (s.vw.alertTime + 1) 65535 else 0
    let established := s.vw.derate = .none ∧ s.vw.ld ≤ alert
    let allQuiet := s.vw.rx = .up ∧ ∀ i, (w.channels.get i).level = .disabled ∨ (w.channels.get i).level = .quiet
    let quiet := min (s.vw.quietTime + 1) 65535
    w.alertTime = alert ∧
    (s.vw.derate = .none → ¬established → w.derate = .none) ∧
    (established → ¬allQuiet → w.derate = .alert ∧ w.quietTime = 0) ∧
    (s.vw.derate ≠ .none → ¬allQuiet → w.derate = s.vw.derate ∧ w.quietTime = 0) ∧
    (s.vw.derate ≠ .none → allQuiet → quiet < s.vw.lr → w.derate = s.vw.derate ∧ w.quietTime = quiet) ∧
    (s.vw.derate ≠ .none → allQuiet → s.vw.lr ≤ quiet → w.derate = .none ∧ w.quietTime = 0) := by
  intro w alert established allQuiet quiet
  obtain ⟨next, due, cond, time⟩ := s.judgedBy_times distinct
  obtain ⟨derate, -, -, lr, -, -⟩ := State.judgeAll_settings (s.reach e.due) e.latched
  obtain ⟨alertTime, idle, establishes, loud, rises, releases⟩ := (s.judgedBy e).moveTimes_spec
  rw [← s.evaluated_of_some some] at alertTime idle establishes loud rises releases
  rw [derate] at idle loud rises releases
  refine ⟨alertTime.trans next, fun none not => ?_, fun is not => ?_, fun is not => ?_, fun is all low => ?_, fun is all high => ?_⟩
  · exact (idle none (mt due.1 not)).1
  · obtain ⟨d, q, -⟩ := establishes (due.2 is) (mt cond.1 not)
    exact ⟨d, q⟩
  · obtain ⟨d, q, -⟩ := loud is (mt cond.1 not)
    exact ⟨d, q⟩
  · obtain ⟨d, q, -⟩ := rises is (cond.2 all) (by rw [time all, lr]; exact low)
    exact ⟨d, q.trans (time all)⟩
  · obtain ⟨d, q, -⟩ := releases is (cond.2 all) (by rw [time all, lr]; exact high)
    exact ⟨d, q⟩

/-- The notice DERATE among the notices. -/
theorem getLsbD_or_derate (n : BitVec 10) (k : Nat) : (n ||| 0x20#10).getLsbD k = true ↔ n.getLsbD k = true ∨ k = 5 := by
  rw [BitVec.getLsbD_or, show (0x20#10) = Notice.derate.mark from rfl, Notice.mark_getLsbD, Bool.or_eq_true, decide_eq_true_eq]
  exact Iff.rfl

/-- An effective evaluation raises DERATE beyond what its blocks raise, at an establishment and, under ANY, at a release (R122). -/
theorem State.moveTimes_getLsbD {s : State} (low : 1 ≤ s.vw.ld) (k : Nat) :
    s.moveAlertTime.moveQuietTime.rn.notice.getLsbD k = true ↔
      s.rn.notice.getLsbD k = true ∨
        (k = 5 ∧ s.moveAlertTime.moveQuietTime.vw.derate ≠ s.vw.derate ∧
          (s.moveAlertTime.moveQuietTime.vw.derate ≠ .none ∨ s.rn.derateAny = true)) := by
  obtain ⟨-, idle, establishes, loud, rises, releases⟩ := s.moveTimes_spec
  by_cases none : s.vw.derate = .none
  · by_cases due : s.AlertDue
    · have notQuiet : ¬s.vw.quietCondition = true := fun quiet => by
        have alarmed : s.vw.alarmed = true := by
          by_contra calm
          have zero : s.nextAlertTime = 0 := if_neg calm
          have := due.2
          omega
        obtain ⟨i, level⟩ := s.vw.alarmed_iff.1 alarmed
        rcases (s.vw.quietCondition_iff'.1 quiet).2 i with q | q <;> simp [q] at level
      obtain ⟨derate, -, rn⟩ := establishes due notQuiet
      rw [derate, rn, none, getLsbD_or_derate]
      simp
    · obtain ⟨derate, rn⟩ := idle none due
      rw [derate, rn, none]
      simp
  · by_cases quiet : s.vw.quietCondition = true
    · rcases lt_or_ge s.nextQuietTime s.vw.lr with early | late
      · obtain ⟨derate, -, rn⟩ := rises none quiet early
        rw [derate, rn]
        simp
      · obtain ⟨derate, -, rn⟩ := releases none quiet late
        rw [derate, rn]
        dsimp only
        split
        case isTrue any =>
          rw [getLsbD_or_derate]
          simp [any, Ne.symm none]
        case isFalse any => simp [any]
    · obtain ⟨derate, -, rn⟩ := loud none quiet
      rw [derate, rn]
      simp

theorem State.evaluated_getLsbD (s : State) {e : Evaluation} (distinct : (e.latched.map (·.channel)).Nodup) (low : 1 ≤ s.vw.ld) (k : Nat) :
    (s.evaluated e).rn.notice.getLsbD k = true ↔
      s.rn.notice.getLsbD k = true ∨
      (k = 6 ∧ ∃ i, s.Moved (s.evaluated e) i ∧ (((s.evaluated e).vw.channels.get i).level ≠ .quiet ∨ s.rn.levelAny = true)) ∨
      (k = 5 ∧ (s.evaluated e).vw.derate ≠ s.vw.derate ∧ ((s.evaluated e).vw.derate ≠ .none ∨ s.rn.derateAny = true)) := by
  by_cases some : e.latched.any Latched.judged = true
  · obtain ⟨derate, -, ld, -, -, any⟩ := State.judgeAll_settings (s.reach e.due) e.latched
    obtain ⟨-, notice⟩ := State.judgeAll_spec distinct (s.reach e.due)
    have times := State.moveTimes_getLsbD (s := s.judgedBy e) (by rw [ld]; exact low) k
    have levels : (∃ i, (s.reach e.due).Moved (s.judgedBy e) i ∧
          (entryChange ((s.judgedBy e).vw.channels.get i).level = true ∨ s.rn.levelAny = true)) ↔
        ∃ i, s.Moved (s.evaluated e) i ∧ (((s.evaluated e).vw.channels.get i).level ≠ .quiet ∨ s.rn.levelAny = true) := by
      refine exists_congr fun i => ?_
      rw [State.Moved, State.Moved, s.evaluated_channels]
      exact and_congr_right fun moved => or_congr (State.judgeAll_entry distinct _ moved) Iff.rfl
    rw [← s.evaluated_of_some some, derate, any, notice k] at times
    rw [times, or_assoc]
    exact or_congr Iff.rfl (or_congr (and_congr Iff.rfl levels) Iff.rfl)
  · rw [s.evaluated_of_none (Bool.eq_false_iff.2 some)]
    simp

/-- Settles O54. -/
theorem evaluationMovesDerateAndTrips : Obligations.EvaluationMovesDerateAndTrips := by
  refine ⟨fun s e evaluating => ⟨_, _, rfl, rfl, State.evaluationEnds_frames evaluating⟩, fun s e evaluating empty => ?_⟩
  have reported : s.evaluationEnds =
      ((s.dangerous e).map .vibrationDanger).foldl State.report ((s.evaluated e).withQueue [] none) := by
    rw [State.evaluationEnds_alone evaluating empty, State.dangersReported_eq, State.reports_withQueue]
  have vw : s.evaluationEnds.vw = ((s.evaluated e).withQueue [] none).vw := by
    rw [State.evaluationEnds_of_empty evaluating empty]
    rfl
  refine ⟨s.evaluationEnds, (s.evaluated e).withQueue [] none, rfl, ?_, ?_, ?_, ?_⟩
  · rw [vw]
    have kept := congrArg (fun v : VibrationWatch => { v with fifo := [], evaluation := none }) (s.evaluated_vw e)
    rw [← empty] at kept ⊢
    exact kept
  · rw [vw]
    have frame := s.evaluated_frame e
    exact congrArg (fun u : State => u.withQueue [] none) frame
  · rw [vw]
    intro effective alarmed allQuiet alert established quiet
    have some : e.latched.any Latched.judged = true ↔ effective := by
      rw [List.any_eq_true]
      exact exists_congr fun l => and_congr_right fun _ => l.judged_iff
    refine ⟨fun none => ?_, fun is distinct => s.evaluated_times (some.2 is) distinct⟩
    have still := s.evaluated_of_none (Bool.eq_false_iff.2 (mt some.1 none))
    rw [still]
    exact ⟨rfl, rfl, rfl, rfl⟩
  · rw [vw]
    intro danger
    have found : s.dangerous e = sensorNumbers.filter fun i => decide (danger i) := s.dangerous_eq e
    rw [found] at reported
    rw [reported]
    have first : ∀ i, danger i → ((s.evaluated e).withQueue [] none).rc.drive ≠ .tripped := fun i ⟨live, _⟩ => by
      have rc : ((s.evaluated e).withQueue [] none).rc = s.rc := (s.evaluated_moves e).rc
      rw [rc]
      rintro tripped
      rw [tripped] at live
      cases live
    refine ⟨fun i is => ?_, fun i is lowest => ?_, State.reports_spec _ _, fun distinct low k _ => s.evaluated_getLsbD distinct low k⟩
    · refine (State.reports_latch _ _).2 _ (List.mem_map.2 ⟨i, ?_, rfl⟩)
      exact List.mem_filter.2 ⟨mem_sensorNumbers i, decide_eq_true is⟩
    · obtain ⟨rest, head⟩ := sensorNumbers_filter_head (p := fun i => decide (danger i)) (decide_eq_true is) fun j hj d =>
        lowest j hj (of_decide_eq_true d)
      rw [head]
      exact State.reports_firstOut (first i is) _ _

end Sys2Proof.Machine

/-! The operations that write exchange memory (R93, R149, R150, R176): the copy that a trip begins (O44), the words of a publication
(O42), and what reads as they are written. -/

namespace Sys2Proof.Machine

/-! ### The copy that an URGENT STOP begins (R147 to R150) -/

/-- One slot at most is the lowest-numbered free slot. -/
theorem LowestFreeSlot.eq_some {m : Memory} {slot : Option (Fin 4)} (h : LowestFreeSlot m slot) {n : Fin 4}
    (free : m.read (slotStateOffset n) = 0 ∨ m.read (slotStateOffset n) = 3)
    (lowest : ∀ j < n, m.read (slotStateOffset j) ≠ 0 ∧ m.read (slotStateOffset j) ≠ 3) : slot = some n := by
  have taken : ∀ j, m.read (slotStateOffset j) = 0 ∨ m.read (slotStateOffset j) = 3 →
      ¬(m.read (slotStateOffset j) ≠ 0 ∧ m.read (slotStateOffset j) ≠ 3) := fun j free ⟨zero, three⟩ => free.elim zero three
  cases slot with
  | none => exact absurd (h n) (taken n free)
  | some k =>
    obtain ⟨freeK, below⟩ := h
    rcases lt_trichotomy n k with less | rfl | more
    · exact absurd (below n less) (taken n free)
    · rfl
    · exact absurd (lowest k more) (taken k freeK)

/-- Settles O44. -/
theorem recordCopyHoldsTheTrip : Obligations.RecordCopyHoldsTheTrip := by
  intro s w n ready urgent keeps first free lowest
  have acts : s.writeControl w = (s.report .urgentStop).abandonWalk := by
    unfold State.writeControl
    rw [if_neg (by simp [ready]), if_neg (by simp only [controlReset, keeps, Bool.false_eq_true, not_false_iff])]
    exact if_pos urgent
  have reported : s.report .urgentStop = s.firstCause .urgentStop := if_neg first
  have rcu : (s.writeControl w).rcu = (s.firstCause .urgentStop).rcu := by
    rw [acts, reported]
    simp
  obtain ⟨slot, chosen, -, -, copies, frame⟩ := s.firstCause_spec .urgentStop
  obtain rfl := chosen.eq_some free lowest
  obtain ⟨job, copy, holds⟩ := copies rfl
  have capture := congrArg State.rcu frame
  refine ⟨_, job, rfl, ?_, ?_, ?_, ?_, holds⟩
  · show (s.writeControl w).rcu.capture = _
    rw [rcu, capture]
  · show (s.writeControl w).rcu.preCount = _
    rw [rcu, capture]
  · show (s.writeControl w).rcu.postCount = _
    rw [rcu, capture]
  · show (s.writeControl w).rcu.copy = _
    rw [rcu, copy]

/-! ### The operations in flight, each in its own words -/

/-- The first word of the region that an operation writes in, under the sizes of the formats: the sector block, the report block, the
slots (08, 8.1; 10, 10.2; 05, 5.6). -/
def Operation.low : Operation → Nat
  | .publication => 0x0200
  | .report => 0x0010
  | .copy => 0x1000

/-- The word behind the region of an operation. -/
def Operation.high : Operation → Nat
  | .publication => 0x0310
  | .report => 0x0100
  | .copy => 0x3000

def Operation.Region (o : Operation) (a : Nat) : Prop := o.low ≤ a ∧ a < o.high

theorem Operation.Region.ne {o o' : Operation} {a b : Nat} (h : o.Region a) (h' : o'.Region b) (other : o' ≠ o) : b ≠ a := by
  rintro rfl
  obtain ⟨low, high⟩ := h
  obtain ⟨low', high'⟩ := h'
  revert other low high low' high'
  cases o <;> cases o' <;> simp only [Operation.low, Operation.high, ne_eq, not_true, false_implies] <;> omega

theorem InsideSlot.inside {n : Fin 4} {a : Nat} (h : InsideSlot n a) : 0x1000 ≤ a ∧ a < Config.xmWords := by
  obtain ⟨low, high⟩ := h
  unfold slotStateOffset at low high
  unfold Config.xmWords
  omega

/-- Under the sizes of the formats an operation in flight writes words of its region. -/
theorem State.stages_region {s : State} (layout : s.LayoutInv) (o : Operation) :
    ∀ c ∈ (s.stages o).flatten, o.Region c.1 ∧ c.1 < Config.xmWords := by
  obtain ⟨⟨-, tables, -⟩, ⟨blocks, -⟩, rcu, -⟩ := s.layoutInv_iff.1 layout
  intro c hc
  cases o with
  | publication =>
    cases flight : s.pt.inFlight with
    | none => simp [State.stages, flight] at hc
    | some p =>
      rw [State.stages, flight] at hc
      obtain ⟨low, high⟩ := Publication.cells_bounds (tables p flight) c hc
      exact ⟨⟨low, Nat.lt_succ_of_le high⟩, by unfold Config.xmWords; omega⟩
  | report =>
    cases flight : s.rn.inFlight with
    | none => simp [State.stages, flight] at hc
    | some ws =>
      rw [State.stages, flight] at hc
      rw [flatten_reportStages] at hc
      obtain ⟨low, high⟩ := mem_cellRun hc
      rw [blocks ws flight] at high
      exact ⟨⟨low, high⟩, by unfold Config.xmWords; omega⟩
  | copy =>
    cases capture : s.rcu.capture with
    | none => simp [State.stages, capture] at hc
    | some n =>
      cases job : s.rcu.copy with
      | none => simp [State.stages, capture, job] at hc
      | some j =>
        rw [State.stages, capture, job] at hc
        have inside := (State.RcuSized.cells rcu n j job c hc).inside
        exact ⟨inside, inside.2⟩

theorem Progress.written_region {s : State} (layout : s.LayoutInv) (p : Progress) (o : Operation) :
    ∀ c ∈ p.written o (s.stages o), o.Region c.1 := fun c hc =>
  (State.stages_region layout o c ((writtenStages_sublist p.words (s.stages o) (p.stage o)).subset hc)).1

/-- Two memories that hold the same word hold the same word behind the same writes. -/
theorem Memory.read_writeAll_congr {m m' : Memory} {a : Nat} (inside : a < Config.xmWords) (same : m.read a = m'.read a)
    (cells : List (Nat × Word)) : (m.writeAll cells).read a = (m'.writeAll cells).read a := by
  induction cells generalizing m m' with
  | nil => exact same
  | cons c cells ih =>
    refine ih (m := m.write c.1 c.2) (m' := m'.write c.1 c.2) ?_
    rw [Memory.read_write _ _ _ _ inside, Memory.read_write _ _ _ _ inside, same]

/-- A word of an operation in flight reads as that operation has written it. -/
theorem State.read_memoryAt_own {s : State} (layout : s.LayoutInv) (p : Progress) {o : Operation} {a : Nat} (inside : a < Config.xmWords)
    (own : o.Region a) : (s.memoryAt p).read a = (s.xm.writeAll (p.written o (s.stages o))).read a := by
  have apart : ∀ o', o' ≠ o → ∀ m : Memory, (m.writeAll (p.written o' (s.stages o'))).read a = m.read a := fun o' other m =>
    Memory.read_writeAll_of_not_mem m _ a inside fun c hc => own.ne (p.written_region layout o' c hc) other
  unfold State.memoryAt
  cases o with
  | publication => rw [apart .copy nofun, apart .report nofun]
  | report => rw [apart .copy nofun, Memory.read_writeAll_congr inside (apart .publication nofun s.xm)]
  | copy => rw [Memory.read_writeAll_congr inside ((apart .report nofun _).trans (apart .publication nofun s.xm))]

/-- The words of an operation in flight read in its order: those of its stages, and words that it does not write behind them. -/
theorem State.memoryAt_inOrder {s : State} (layout : s.LayoutInv) (p : Progress) (o : Operation) {new : Nat → Word} {stage : Nat → Option Nat}
    (once : ((s.stages o).flatten.map (·.1)).Nodup)
    (staged : ∀ a k, stage a = some k → o.Region a ∧ a < Config.xmWords ∧
      ((∃ g, (s.stages o)[k]? = some g ∧ (a, new a) ∈ g) ∨ ∀ c ∈ (s.stages o).flatten, c.1 ≠ a)) 
    (later : ∀ a k, stage a = some k → (∃ g, (s.stages o)[k]? = some g ∧ (a, new a) ∈ g) → ∀ b j, stage b = some j → j < k →
      ∃ g, (s.stages o)[j]? = some g ∧ (b, new b) ∈ g) :
    WrittenInOrder s.xm.read new (s.memoryAt p).read stage := by
  intro a k ha
  obtain ⟨own, inside, cells⟩ := staged a k ha
  have bounds : ∀ c ∈ (s.stages o).flatten, c.1 < Config.xmWords := fun c hc => (State.stages_region layout o c hc).2
  rw [State.read_memoryAt_own layout p inside own]
  rcases cells with ⟨g, hg, mem⟩ | unwritten
  · obtain ⟨either, order⟩ := written_inOrder (words := p.words) s.xm (p.stage o) once bounds hg mem
    refine ⟨either, fun moved b j hb before => ?_⟩
    obtain ⟨f, hf, memb⟩ := later a k ha ⟨g, hg, mem⟩ b j hb before
    obtain ⟨ownb, insideb, -⟩ := staged b j hb
    rw [State.read_memoryAt_own layout p insideb ownb]
    exact order moved j before f hf _ memb
  · have still := Memory.read_writeAll_of_not_mem s.xm (p.written o (s.stages o)) a inside fun c hc =>
      unwritten c ((writtenStages_sublist p.words (s.stages o) (p.stage o)).subset hc)
    exact ⟨.inl still, fun moved => absurd still moved⟩

end Sys2Proof.Machine

/-! The words of a publication (R91 to R93): the sector table, the summary, and the completion (O42). -/

namespace Sys2Proof.Machine

/-! ### The best sector of a table (R92) -/

/-- The greatest of a value over the sectors with a count above 0, with the lowest sector that has it. -/
def bestSector (f : WorkEntry → Int) : Nat → List WorkEntry → Option (Int × Nat)
  | _, [] => none
  | i, e :: es =>
    match bestSector f (i + 1) es with
    | none => if e.count = 0 then none else some (f e, i)
    | some (v, j) => if e.count ≠ 0 ∧ v ≤ f e then some (f e, i) else some (v, j)

theorem maxSector_eq (i : Nat) (es : List WorkEntry) : maxSector i es = bestSector WorkEntry.pubTmax i es := by
  induction es generalizing i with
  | nil => rfl
  | cons e es ih =>
    unfold maxSector bestSector
    cases best : bestSector WorkEntry.pubTmax (i + 1) es <;> simp only [ih, best]

theorem minSector_eq (i : Nat) (es : List WorkEntry) :
    minSector i es = (bestSector (fun e => -e.pubTmin) i es).map fun b => (-b.1, b.2) := by
  induction es generalizing i with
  | nil => rfl
  | cons e es ih =>
    unfold minSector bestSector
    rw [ih]
    cases bestSector (fun e => -e.pubTmin) (i + 1) es with
    | none =>
      dsimp only [Option.map_none]
      split <;> simp
    | some b =>
      dsimp only [Option.map_some]
      simp only [le_neg (a := b.1)]
      split <;> simp

/-- The best sector is none when no sector has a count, and else the lowest of those with the greatest value. -/
theorem bestSector_spec (f : WorkEntry → Int) (i : Nat) (es : List WorkEntry) :
    (bestSector f i es = none ∧ ∀ e ∈ es, e.count = 0) ∨
    ∃ k e, es[k]? = some e ∧ e.count ≠ 0 ∧ bestSector f i es = some (f e, i + k) ∧
      ∀ k' x, es[k']? = some x → x.count ≠ 0 → f x ≤ f e ∧ (k' < k → f x < f e) := by
  induction es generalizing i with
  | nil => exact .inl ⟨rfl, nofun⟩
  | cons y es ih =>
    unfold bestSector
    rcases ih (i + 1) with ⟨none, zero⟩ | ⟨k, e, place, count, best, greatest⟩
    · rw [none]
      dsimp only
      by_cases empty : y.count = 0
      · rw [if_pos empty]
        exact .inl ⟨rfl, by simpa [empty] using zero⟩
      · rw [if_neg empty]
        refine .inr ⟨0, y, rfl, empty, rfl, fun k' x hx counted => ?_⟩
        cases k' with
        | zero =>
          obtain rfl : y = x := by simpa using hx
          exact ⟨le_rfl, nofun⟩
        | succ k' => exact absurd (zero x (List.mem_of_getElem? hx)) counted
    · rw [best]
      dsimp only
      by_cases better : y.count ≠ 0 ∧ f e ≤ f y
      · rw [if_pos better]
        refine .inr ⟨0, y, rfl, better.1, rfl, fun k' x hx counted => ⟨?_, nofun⟩⟩
        cases k' with
        | zero =>
          obtain rfl : y = x := by simpa using hx
          exact le_rfl
        | succ k' => exact (greatest k' x hx counted).1.trans better.2
      · rw [if_neg better]
        refine .inr ⟨k + 1, e, place, count, by rw [Nat.add_right_comm, Nat.add_assoc], fun k' x hx counted => ?_⟩
        cases k' with
        | zero =>
          obtain rfl : y = x := by simpa using hx
          have less : f y < f e := not_le.1 fun le => better ⟨counted, le⟩
          exact ⟨less.le, fun _ => less⟩
        | succ k' =>
          obtain ⟨le, strict⟩ := greatest k' x hx counted
          exact ⟨le, fun before => strict (by omega)⟩

/-! ### Words of the sector table -/

theorem tableWords_getElem? (valid : Bool) (i : Nat) {es : List WorkEntry} {j : Nat} {e : WorkEntry} (place : es[j]? = some e) {k : Nat}
    (word : k < 8) : (tableWords valid i es)[8 * j + k]? = (sectorEntryWords (i + j) valid e)[k]? := by
  induction es generalizing i j with
  | nil => cases place
  | cons y es ih =>
    unfold tableWords
    cases j with
    | zero =>
      obtain rfl : y = e := by simpa using place
      rw [Nat.mul_zero, Nat.zero_add, List.getElem?_append_left (by exact word)]
      rfl
    | succ j =>
      have length : (sectorEntryWords i valid y).length = 8 := rfl
      rw [List.getElem?_append_right (by rw [length]; omega), length, show 8 * (j + 1) + k - 8 = 8 * j + k by omega, ih (i + 1) place,
        Nat.add_right_comm, Nat.add_assoc]

/-- The memory behind a publication's writes, word by word. -/
theorem Publication.read_cells (p : Publication) (m : Memory) {b : Nat} (inside : b < Config.xmWords) :
    some ((m.writeAll p.cells).read b) =
      if b = 0x030F then some (wordN p.number)
      else if 0x0301 ≤ b ∧ b < 0x030F then p.rev.summaryWords[b - 0x0301]?
      else if 0x0200 ≤ b ∧ b < 0x0200 + 8 * p.rev.table.length then (tableWords p.rev.valid 0 p.rev.table)[b - 0x0200]?
      else if b = 0x0300 then some (wordN p.number) else some (m.read b) := by
  have summary : p.rev.summaryWords.length = 14 := rfl
  have table := tableWords_length p.rev.valid 0 p.rev.table
  rw [Publication.cells_eq]
  show some (((m.write 0x0300 (wordN p.number)).writeAll _).read b) = _
  rw [Memory.writeAll_append, Memory.writeAll_append]
  show some ((Memory.write _ 0x030F (wordN p.number)).read b) = _
  rw [Memory.read_write _ _ _ _ inside, Memory.read_writeAll_cellRun _ _ _ _ inside, Memory.read_writeAll_cellRun _ _ _ _ inside,
    Memory.read_write _ _ _ _ inside]
  by_cases last : b = 0x030F
  · rw [if_pos last, if_pos last]
  rw [if_neg last, if_neg last]
  by_cases sum : 0x0301 ≤ b ∧ b < 0x030F
  · rw [dif_pos (by omega), if_pos sum, List.getElem?_eq_getElem (by omega)]
  rw [dif_neg (by omega), if_neg sum]
  by_cases entry : 0x0200 ≤ b ∧ b < 0x0200 + 8 * p.rev.table.length
  · rw [dif_pos (by omega), if_pos entry, List.getElem?_eq_getElem (by omega)]
  rw [dif_neg (by omega), if_neg entry]
  split <;> rfl

section
variable {p : Publication} (m : Memory)

theorem Publication.read_summary {k : Nat} (word : k < 14) {w : Word} (value : p.rev.summaryWords[k]? = some w) :
    (m.writeAll p.cells).read (0x0301 + k) = w := by
  have read := p.read_cells m (b := 0x0301 + k) (by unfold Config.xmWords; omega)
  rw [if_neg (by omega), if_pos (by omega), Nat.add_sub_cancel_left, value] at read
  exact Option.some.inj read

theorem Publication.read_table (length : p.rev.table.length = 32) {i : Nat} {e : WorkEntry} (place : p.rev.table[i]? = some e) {k : Nat}
    (word : k < 8) {w : Word} (value : (sectorEntryWords i p.rev.valid e)[k]? = some w) :
    (m.writeAll p.cells).read (0x0200 + (8 * i + k)) = w := by
  have sector : i < 32 := by
    rw [← length]
    exact (List.getElem?_eq_some_iff.1 place).1
  have read := p.read_cells m (b := 0x0200 + (8 * i + k)) (by unfold Config.xmWords; omega)
  rw [if_neg (by omega), if_neg (by omega), if_pos (by omega), Nat.add_sub_cancel_left, tableWords_getElem? _ _ place word, Nat.zero_add,
    value] at read
  exact Option.some.inj read

theorem Publication.read_number (length : p.rev.table.length = 32) :
    (m.writeAll p.cells).read 0x0300 = wordN p.number ∧ (m.writeAll p.cells).read 0x030F = wordN p.number := by
  have start := p.read_cells m (b := 0x0300) (by decide)
  have last := p.read_cells m (b := 0x030F) (by decide)
  rw [if_neg (by omega), if_neg (by omega), if_neg (by omega), if_pos rfl] at start
  rw [if_pos rfl] at last
  exact ⟨Option.some.inj start, Option.some.inj last⟩

theorem Publication.read_other (length : p.rev.table.length = 32) {a : Nat} (inside : a < Config.xmWords) (other : a < 0x0200 ∨ 0x0310 ≤ a) :
    (m.writeAll p.cells).read a = m.read a := by
  have read := p.read_cells m inside
  rw [if_neg (by omega), if_neg (by omega), if_neg (by omega), if_neg (by omega)] at read
  exact Option.some.inj read

end

/-! ### The order of the writing (R93) -/

/-- A run of cells stands at consecutive offsets. -/
theorem cellRun_offsets (a : Nat) (ws : List Word) : (cellRun a ws).map (·.1) = List.range' a ws.length := by
  induction ws generalizing a with
  | nil => rfl
  | cons w ws ih => simp [cellRun, ih, List.range'_succ]

theorem mem_cellRun_of_getElem? {a : Nat} {ws : List Word} {k : Nat} {w : Word} (h : ws[k]? = some w) : (a + k, w) ∈ cellRun a ws := by
  induction ws generalizing a k with
  | nil => cases h
  | cons v ws ih =>
    cases k with
    | zero =>
      obtain rfl : v = w := by simpa using h
      exact List.mem_cons_self
    | succ k =>
      have later := ih (a := a + 1) (k := k) h
      rw [Nat.add_right_comm] at later
      exact List.mem_cons_of_mem _ later

/-- A publication writes each of its words once. -/
theorem Publication.cells_nodup {p : Publication} (length : p.rev.table.length = 32) : (p.cells.map (·.1)).Nodup := by
  have summary : p.rev.summaryWords.length = 14 := rfl
  rw [Publication.cells_eq]
  simp only [List.map_cons, List.map_append, cellRun_offsets, tableWords_length, length, summary, List.nodup_cons, List.nodup_append,
    List.mem_append, List.mem_range'_1, List.map_nil, List.mem_singleton, List.nodup_nil, List.not_mem_nil]
  refine ⟨by omega, ⟨List.nodup_range', List.nodup_range', ?_⟩, by simp, ?_⟩
  · intro a ha b hb
    omega
  · intro a ha b hb
    omega

/-- Each word of the sector block is a cell of its stage. -/
theorem Publication.stage_cell {p : Publication} (length : p.rev.table.length = 32) (m : Memory) {a k : Nat}
    (stage : publicationStage a = some k) :
    Operation.Region .publication a ∧ a < Config.xmWords ∧ ∃ g, p.stages[k]? = some g ∧ (a, (m.writeAll p.cells).read a) ∈ g := by
  obtain ⟨first, last⟩ := p.read_number m length
  unfold publicationStage at stage
  split at stage
  case isTrue start =>
    cases stage
    subst start
    exact ⟨⟨by decide, by decide⟩, by decide, _, rfl, by rw [first]; exact List.mem_singleton_self _⟩
  case isFalse other =>
  split at stage
  case isTrue middle =>
    cases stage
    have inside : a < Config.xmWords := by unfold Config.xmWords; omega
    refine ⟨⟨middle.1, Nat.lt_succ_of_le (by omega)⟩, inside, _, rfl, ?_⟩
    have read := p.read_cells m inside
    rw [if_neg (by omega)] at read
    by_cases sum : 0x0301 ≤ a
    · rw [if_pos (by omega)] at read
      have mem := mem_cellRun_of_getElem? (a := 0x0301) read.symm
      rw [Nat.add_sub_cancel' sum] at mem
      exact List.mem_append_right _ mem
    · rw [if_neg (by omega), if_pos (by omega)] at read
      have mem := mem_cellRun_of_getElem? (a := 0x0200) read.symm
      rw [Nat.add_sub_cancel' middle.1] at mem
      exact List.mem_append_left _ mem
  case isFalse =>
    split at stage
    case isTrue final =>
      cases stage
      subst final
      exact ⟨⟨by decide, by decide⟩, by decide, _, rfl, by rw [last]; exact List.mem_singleton_self _⟩
    case isFalse => cases stage

/-! ### The completion of a publication (R91 to R93) -/

theorem clampWord_eq (i : Int) : clampWord i = max (-32768) (min 32767 i) := clamp_eq (by decide)

/-- A published value of a sector is 0 where the count is 0 (R91). -/
theorem wordI_ite (count : Nat) (i : Int) :
    wordI (if count = 0 then 0 else clampWord i) = if count = 0 then 0 else wordI (max (-32768) (min 32767 i)) := by
  split
  · rfl
  · rw [clampWord_eq]

theorem WorkEntry.marks_eq (e : WorkEntry) (valid : Bool) :
    wordN (bit valid + 2 * bit (e.count == 0) + 4 * bit e.countFull) =
      wordN ((if valid then 1 else 0) + (if e.count = 0 then 2 else 0) + (if e.countFull then 4 else 0)) := by
  have empty : 2 * bit (e.count == 0) = if e.count = 0 then 2 else 0 := by
    by_cases zero : e.count = 0 <;> simp [zero, bit]
  have full : 4 * bit e.countFull = if e.countFull then 4 else 0 := by
    cases e.countFull <;> rfl
  rw [empty, full]
  rfl

section
variable {pub : Publication} (m : Memory)

/-- The summary of a table without a counted sector (R92). -/
theorem Publication.read_uncounted (none : ∀ e ∈ pub.rev.table, e.count = 0) :
    let t := m.writeAll pub.cells
    t.read 0x0306 = 0 ∧ t.read 0x0307 = 0xFFFF#16 ∧ t.read 0x0308 = 0xFFFF#16 ∧ t.read 0x0309 = 0 := by
  intro t
  have best : ∀ f, bestSector f 0 pub.rev.table = Option.none := fun f => by
    rcases bestSector_spec f 0 pub.rev.table with ⟨best, -⟩ | ⟨k, e, place, count, -⟩
    · exact best
    · exact absurd (none e (List.mem_of_getElem? place)) count
  have hi : maxSector 0 pub.rev.table = Option.none := (maxSector_eq _ _).trans (best _)
  have lo : minSector 0 pub.rev.table = Option.none := by rw [minSector_eq, best, Option.map_none]
  have mean : meanTorque pub.rev.table = 0 := by
    have total : (pub.rev.table.map (·.count)).sum = 0 := List.sum_eq_zero fun c hc => by
      obtain ⟨e, he, rfl⟩ := List.mem_map.1 hc
      exact none e he
    exact if_pos total
  refine ⟨Publication.read_summary m (k := 5) (by decide) ?_, Publication.read_summary m (k := 6) (by decide) ?_,
    Publication.read_summary m (k := 7) (by decide) ?_, Publication.read_summary m (k := 8) (by decide) ?_⟩
  all_goals
    unfold Revolution.summaryWords
    rw [hi, lo, mean]
    rfl

/-- The published greatest or least value of a counted sector (R91). -/
theorem WorkEntry.pub_of_counted {e : WorkEntry} (count : e.count ≠ 0) :
    e.pubTmax = max (-32768) (min 32767 (e.tmax.getD 0)) ∧ e.pubTmin = max (-32768) (min 32767 (e.tmin.getD 0)) := by
  unfold WorkEntry.pubTmax WorkEntry.pubTmin
  rw [if_neg count, if_neg count, clampWord_eq, clampWord_eq]
  exact ⟨rfl, rfl⟩

/-- The summary of a table with a counted sector (R92). -/
theorem Publication.read_counted (length : pub.rev.table.length = 32) (any : ∃ e ∈ pub.rev.table, e.count ≠ 0) :
    let t := m.writeAll pub.cells
    let held := fun i : Int => max (-32768) (min 32767 i)
    ∃ (i j : Fin 32) (e f : WorkEntry), pub.rev.table[i.val]? = some e ∧ pub.rev.table[j.val]? = some f ∧
      e.count ≠ 0 ∧ f.count ≠ 0 ∧
      (∀ (k : Nat) (x : WorkEntry), pub.rev.table[k]? = some x → x.count ≠ 0 →
        held (x.tmax.getD 0) ≤ held (e.tmax.getD 0) ∧ (k < i.val → held (x.tmax.getD 0) < held (e.tmax.getD 0)) ∧
        held (f.tmin.getD 0) ≤ held (x.tmin.getD 0) ∧ (k < j.val → held (f.tmin.getD 0) < held (x.tmin.getD 0))) ∧
      t.read 0x0306 = wordI (held (e.tmax.getD 0) - held (f.tmin.getD 0)) ∧
      t.read 0x0307 = wordN i.val ∧ t.read 0x0308 = wordN j.val ∧
      t.read 0x0309 = wordI (held ((pub.rev.table.map (·.sum)).sum / (((pub.rev.table.map (·.count)).sum : Nat) : Int))) := by
  intro t held
  obtain ⟨y, hy, counted⟩ := any
  have sector : ∀ {k : Nat} {e : WorkEntry}, pub.rev.table[k]? = some e → k < 32 := fun h => by
    rw [← length]
    exact (List.getElem?_eq_some_iff.1 h).1
  obtain ⟨-, zero⟩ | ⟨i, e, placeE, countE, bestE, greatest⟩ := bestSector_spec WorkEntry.pubTmax 0 pub.rev.table
  · exact absurd (zero y hy) counted
  obtain ⟨-, zero⟩ | ⟨j, f, placeF, countF, bestF, least⟩ := bestSector_spec (fun e => -e.pubTmin) 0 pub.rev.table
  · exact absurd (zero y hy) counted
  have hi : maxSector 0 pub.rev.table = some (e.pubTmax, i) := by rw [maxSector_eq, bestE, Nat.zero_add]
  have lo : minSector 0 pub.rev.table = some (f.pubTmin, j) := by rw [minSector_eq, bestF, Nat.zero_add, Option.map_some, neg_neg]
  obtain ⟨maxE, -⟩ := WorkEntry.pub_of_counted countE
  obtain ⟨-, minF⟩ := WorkEntry.pub_of_counted countF
  have mean : meanTorque pub.rev.table =
      held ((pub.rev.table.map (·.sum)).sum / (((pub.rev.table.map (·.count)).sum : Nat) : Int)) := by
    have total : (pub.rev.table.map (·.count)).sum ≠ 0 := fun zero =>
      counted (List.sum_eq_zero_iff.1 zero _ (List.mem_map.2 ⟨y, hy, rfl⟩))
    exact (if_neg total).trans (clampWord_eq _)
  refine ⟨⟨i, sector placeE⟩, ⟨j, sector placeF⟩, e, f, placeE, placeF, countE, countF, fun k x place count => ?_,
    Publication.read_summary m (k := 5) (by decide) ?_, Publication.read_summary m (k := 6) (by decide) ?_,
    Publication.read_summary m (k := 7) (by decide) ?_, Publication.read_summary m (k := 8) (by decide) ?_⟩
  · obtain ⟨maxX, minX⟩ := WorkEntry.pub_of_counted count
    obtain ⟨above, strictly⟩ := greatest k x place count
    obtain ⟨below, strictly'⟩ := least k x place count
    rw [maxX, maxE] at above strictly
    rw [minX, minF] at below strictly'
    exact ⟨above, strictly, neg_le_neg_iff.1 below, fun before => neg_lt_neg_iff.1 (strictly' before)⟩
  all_goals
    unfold Revolution.summaryWords
    rw [hi, lo, mean, maxE, minF]
    rfl

end

/-- Settles O42. -/
theorem publicationWritesTheSectorBlock : Obligations.PublicationWritesTheSectorBlock := by
  intro s pub flight length held counted net
  have xm : s.completePublication.xm = s.xm.writeAll pub.cells := by
    unfold State.completePublication
    rw [flight]
    cases s.pt.waiting <;> rfl
  have uncounted : counted = [] ↔ ∀ e ∈ pub.rev.table, e.count = 0 := by
    rw [List.filter_eq_nil_iff]
    simp
  obtain ⟨first, last⟩ := pub.read_number s.xm length
  have word : ∀ {k : Nat}, k < 14 → ∀ {w}, pub.rev.summaryWords[k]? = some w → (s.xm.writeAll pub.cells).read (0x0301 + k) = w :=
    fun small => Publication.read_summary s.xm small
  refine ⟨_, rfl, ?_⟩
  show (∀ a < Config.xmWords, a < 0x0200 ∨ 0x0310 ≤ a → s.completePublication.xm.read a = s.xm.read a) ∧ _
  rw [xm]
  refine ⟨fun a inside other => pub.read_other s.xm length inside other, first, last, fun i small e place => ?_, word (k := 0) (by decide) rfl,
    word (k := 1) (by decide) rfl, word (k := 2) (by decide) rfl, word (k := 3) (by decide) rfl, word (k := 4) (by decide) rfl,
    fun none => pub.read_uncounted s.xm (uncounted.1 none), fun some => pub.read_counted s.xm length (by simpa using mt uncounted.2 some),
    ?_, fun a low high => ?_, ?_, fun layout p => ?_⟩
  case refine_1 =>
    have entry : ∀ {k : Nat}, k < 8 → ∀ {w}, (sectorEntryWords i pub.rev.valid e)[k]? = some w →
        (s.xm.writeAll pub.cells).read (0x0200 + k + 8 * i) = w := fun hk w value => by
      rw [Nat.add_assoc, Nat.add_comm _ (8 * i)]
      exact pub.read_table s.xm length place hk value
    refine ⟨entry (k := 0) (by decide) rfl, entry (k := 1) (by decide) rfl, ?_, ?_, ?_, entry (k := 5) (by decide) rfl,
      entry (k := 6) (by decide) rfl, ?_⟩
    · exact (entry (k := 2) (by decide) rfl).trans (wordI_ite _ _)
    · exact (entry (k := 3) (by decide) rfl).trans (wordI_ite _ _)
    · exact (entry (k := 4) (by decide) rfl).trans (wordI_ite _ _)
    · exact (entry (k := 7) (by decide) rfl).trans (e.marks_eq _)
  case refine_2 =>
    rw [word (k := 9) (by decide) rfl]
    cases pub.rev.valid <;> rfl
  case refine_3 =>
    have zero : pub.rev.summaryWords[a - 0x0301]? = some 0 := by
      obtain ⟨k, rfl⟩ : ∃ k, a = 0x030B + k := ⟨a - 0x030B, by omega⟩
      have small : k < 4 := by omega
      interval_cases k <;> rfl
    have read := word (by omega) zero
    rwa [Nat.add_sub_cancel' (by omega)] at read
  case refine_4 =>
    show s.completePublication = _
    unfold State.completePublication
    rw [flight]
    cases s.pt.waiting <;> rfl
  case refine_5 =>
    have stages : s.stages .publication = pub.stages := by rw [State.stages, flight]
    have cells : ∀ a k, publicationStage a = some k → _ := fun a k => pub.stage_cell length s.xm
    rw [← stages] at cells
    refine State.memoryAt_inOrder layout p .publication ?_ (fun a k ha => ?_) fun a k ha _ b j hb _ => ?_
    · rw [stages]
      exact Publication.cells_nodup length
    · obtain ⟨region, inside, cell⟩ := cells a k ha
      exact ⟨region, inside, .inl cell⟩
    · obtain ⟨-, -, cell⟩ := cells b j hb
      exact cell

end Sys2Proof.Machine

/-! A report and a record copy at their completion, and the order in which words are written, in operations and in events (R131, R134,
R150 to R152, R159, R176; O43). -/

namespace Sys2Proof.Machine

/-! ### Reports (R176) -/

theorem cellRun_getElem? {a : Nat} {ws : List Word} {k : Nat} {w : Word} (h : ws[k]? = some w) : (cellRun a ws)[k]? = some (a + k, w) := by
  induction ws generalizing a k with
  | nil => cases h
  | cons v ws ih =>
    cases k with
    | zero =>
      obtain rfl : v = w := by simpa using h
      rfl
    | succ k =>
      have later := ih (a := a + 1) (k := k) h
      rw [Nat.add_right_comm] at later
      exact later

/-- The report block behind the writing of a report's 240 words. -/
theorem read_reportBlock (m : Memory) {ws : List Word} (length : ws.length = 240) {a : Nat} (inside : a < Config.xmWords) :
    some ((m.writeBlock 0x0010 ws).read a) = if 0x0010 ≤ a ∧ a ≤ 0x00FF then ws[a - 0x0010]? else some (m.read a) := by
  rw [Memory.read_writeBlock _ _ _ _ inside]
  by_cases block : 0x0010 ≤ a ∧ a ≤ 0x00FF
  · rw [dif_pos (by omega), if_pos block, List.getElem?_eq_getElem (by omega)]
  · rw [dif_neg (by omega), if_neg block]

/-- Each word of the report block is a cell of its stage. -/
theorem reportStages_cell (m : Memory) {ws : List Word} (length : ws.length = 240) {a k : Nat} (stage : reportStage a = some k) :
    Operation.Region .report a ∧ a < Config.xmWords ∧
      ∃ g, (reportStages ws)[k]? = some g ∧ (a, (m.writeBlock 0x0010 ws).read a) ∈ g := by
  have bounds : 0x0010 ≤ a ∧ a ≤ 0x00FF := by
    unfold reportStage at stage
    split_ifs at stage <;> omega
  have inside : a < Config.xmWords := by unfold Config.xmWords; omega
  refine ⟨⟨bounds.1, Nat.lt_succ_of_le bounds.2⟩, inside, ?_⟩
  have read := read_reportBlock m length inside
  rw [if_pos bounds] at read
  have cell := cellRun_getElem? (a := 0x0010) read.symm
  rw [Nat.add_sub_cancel' bounds.1] at cell
  unfold reportStage at stage
  split at stage
  case isTrue start =>
    cases stage
    refine ⟨_, rfl, List.mem_of_getElem? (i := a - 0x0010) ?_⟩
    rw [List.getElem?_take_of_lt (by omega)]
    exact cell
  case isFalse other =>
  split at stage
  case isTrue middle =>
    cases stage
    refine ⟨_, rfl, List.mem_of_getElem? (i := a - 0x0011) ?_⟩
    rw [List.getElem?_take_of_lt (by omega), List.getElem?_drop, show 1 + (a - 0x0011) = a - 0x0010 by omega]
    exact cell
  case isFalse =>
    split at stage
    case isTrue final =>
      cases stage
      refine ⟨_, rfl, List.mem_of_getElem? (i := 0) ?_⟩
      rw [List.getElem?_drop, show 239 + 0 = a - 0x0010 by omega]
      exact cell
    case isFalse => cases stage

/-! ### Record copies (R145, R149, R150) -/

theorem flatMap_words_length (xs : List Snapshot) : (xs.flatMap Snapshot.words).length = 16 * xs.length := by
  induction xs with
  | nil => rfl
  | cons x xs ih =>
    rw [List.flatMap_cons, List.length_append, ih, Snapshot.words_length, List.length_cons]
    omega

theorem flatMap_words_getElem? (xs : List Snapshot) (i : Nat) {k : Nat} (word : k < 16) :
    (xs.flatMap Snapshot.words)[16 * i + k]? = (xs[i]?).map fun x => snapshotWord x k := by
  induction xs generalizing i with
  | nil => simp
  | cons x xs ih =>
    rw [List.flatMap_cons]
    cases i with
    | zero =>
      rw [Nat.mul_zero, Nat.zero_add, List.getElem?_append_left (by rw [Snapshot.words_length]; exact word), x.words_getElem word]
      rfl
    | succ i =>
      rw [List.getElem?_append_right (by rw [Snapshot.words_length]; omega), Snapshot.words_length,
        show 16 * (i + 1) + k - 16 = 16 * i + k by omega, ih]
      rfl

theorem placeStages_getElem? (n : Fin 4) (p : Nat) (xs : List Snapshot) (i : Nat) :
    (placeStages n p xs)[i]? = (xs[i]?).map fun x => cellRun (placeOffset n (p + i)) x.words := by
  induction xs generalizing p i with
  | nil => simp [placeStages]
  | cons x xs ih =>
    cases i with
    | zero => rfl
    | succ i =>
      rw [placeStages, List.getElem?_cons_succ, ih, Nat.add_right_comm, Nat.add_assoc]
      rfl

theorem placeStages_length (n : Fin 4) (p : Nat) (xs : List Snapshot) : (placeStages n p xs).length = xs.length := by
  induction xs generalizing p with
  | nil => rfl
  | cons x xs ih => exact congrArg (· + 1) (ih (p + 1))

/-- The slot behind the completion of a copy, word by word. -/
theorem CopyJob.read_cells (m : Memory) {j : CopyJob} (n : Fin 4) (header : j.header.length = 127) (post : Word) {a : Nat}
    (inside : a < Config.xmWords) :
    some (((m.writeAll (j.cells n)).write (slotStateOffset n + 14) post).read a) =
      if a = slotStateOffset n + 14 then some post
      else if slotStateOffset n < a ∧ a < slotStateOffset n + 128 then j.header[a - slotStateOffset n - 1]?
      else if slotStateOffset n + 128 ≤ a ∧ a < slotStateOffset n + 128 + 16 * j.pre.length then
        (j.pre[(a - slotStateOffset n - 128) / 16]?).map fun x => snapshotWord x ((a - slotStateOffset n - 128) % 16)
      else some (m.read a) := by
  have words := flatMap_words_length j.pre
  have place : placeOffset n 0 = slotStateOffset n + 128 := by unfold placeOffset; omega
  rw [Memory.read_write _ _ _ _ inside, CopyJob.cells_eq, Memory.writeAll_append, Memory.read_writeAll_cellRun _ _ _ _ inside,
    Memory.read_writeAll_cellRun _ _ _ _ inside, place]
  by_cases count : a = slotStateOffset n + 14
  · rw [if_pos count, if_pos count]
  rw [if_neg count, if_neg count]
  by_cases head : slotStateOffset n < a ∧ a < slotStateOffset n + 128
  · rw [dif_neg (by omega), dif_pos (by omega), if_pos head, Nat.sub_sub, List.getElem?_eq_getElem (by omega)]
  rw [if_neg head]
  by_cases pre : slotStateOffset n + 128 ≤ a ∧ a < slotStateOffset n + 128 + 16 * j.pre.length
  · rw [dif_pos (by omega), if_pos pre, ← flatMap_words_getElem? j.pre _ (Nat.mod_lt _ (by decide)), Nat.div_add_mod,
      Nat.sub_sub, List.getElem?_eq_getElem (by omega)]
  · rw [dif_neg (by omega), dif_neg (by omega), if_neg pre]

theorem CopyJob.cells_nodup {j : CopyJob} (n : Fin 4) (header : j.header.length = 127) : ((j.cells n).map (·.1)).Nodup := by
  rw [CopyJob.cells_eq]
  simp only [List.map_append, cellRun_offsets, List.nodup_append, List.mem_range'_1]
  refine ⟨List.nodup_range', List.nodup_range', fun a ha b hb => ?_⟩
  unfold placeOffset at hb
  omega

/-- Each word that a copy writes is a cell of its stage: those of the header but for the post count, and those of its places. -/
theorem CopyJob.stage_cell (m : Memory) {j : CopyJob} (n : Fin 4) (header : j.header.length = 127) (post : Word)
    {a k : Nat} (stage : copyStage n a = some k) :
    InsideSlot n a ∧ (if k ≤ j.pre.length then
      ∃ g, (j.stages n)[k]? = some g ∧ (a, ((m.writeAll (j.cells n)).write (slotStateOffset n + 14) post).read a) ∈ g
      else ∀ c ∈ (j.stages n).flatten, c.1 ≠ a) := by
  have within : InsideSlot n a := by
    unfold copyStage at stage
    split_ifs at stage with head place <;> exact ⟨by omega, by omega⟩
  have read := CopyJob.read_cells m n header post within.inside.2
  refine ⟨within, ?_⟩
  unfold copyStage at stage
  split at stage
  case isTrue head =>
    cases stage
    rw [if_neg head.2.2, if_pos ⟨head.1, head.2.1⟩, Nat.sub_sub] at read
    have cell := mem_cellRun_of_getElem? (a := slotStateOffset n + 1) read.symm
    rw [Nat.add_sub_cancel' (show slotStateOffset n + 1 ≤ a by omega)] at cell
    rw [if_pos (Nat.zero_le _)]
    exact ⟨_, rfl, cell⟩
  case isFalse other =>
  split at stage
  case isTrue place =>
    cases stage
    split
    case isTrue written =>
      have mem : (a - slotStateOffset n - 128) / 16 < j.pre.length := by omega
      have found := List.getElem?_eq_getElem mem
      rw [if_neg (by omega), if_neg (by omega), if_pos (by omega), found, Option.map_some] at read
      refine ⟨cellRun (placeOffset n ((a - slotStateOffset n - 128) / 16)) (j.pre[(a - slotStateOffset n - 128) / 16]).words, ?_, ?_⟩
      · rw [CopyJob.stages, List.getElem?_cons_succ, placeStages_getElem?, found, Nat.zero_add]
        rfl
      · have cell := mem_cellRun_of_getElem? (a := placeOffset n ((a - slotStateOffset n - 128) / 16))
          (((j.pre[(a - slotStateOffset n - 128) / 16]).words_getElem (Nat.mod_lt (a - slotStateOffset n - 128) (by decide))).trans read.symm)
        rwa [show placeOffset n ((a - slotStateOffset n - 128) / 16) + (a - slotStateOffset n - 128) % 16 = a by
          unfold placeOffset; omega] at cell
    case isFalse beyond =>
      intro c hc
      rw [show (j.stages n).flatten = j.cells n from rfl, CopyJob.cells_eq] at hc
      have words := flatMap_words_length j.pre
      rcases List.mem_append.1 hc with head | pre
      · have := mem_cellRun head
        omega
      · have := mem_cellRun pre
        unfold placeOffset at this
        omega
  case isFalse => cases stage

/-! ### Events (R131, R134, R151, R152, R159) -/

theorem State.TripInv.openEntry_none {s : State} (h : s.TripInv) (drive : s.rc.drive ≠ .tripped) : s.tu.openEntry = none := by
  obtain ⟨-, -, -, -, -, -, window, same, -⟩ := h
  by_contra opened
  rw [Option.isSome_iff_ne_none.2 opened, eq_comm, Option.isSome_iff_exists] at same
  obtain ⟨n, hn⟩ := same
  exact drive (window n hn).2.1

/-- One slot at most is the lowest-numbered free slot: the one chosen (R147). -/
theorem LowestFreeSlot.eq_chosen {s : State} {slot : Option (Fin 4)} (h : LowestFreeSlot s.xm slot) : slot = s.chooseSlot := by
  have chosen := s.chooseSlot_spec
  cases slot with
  | some n =>
    obtain ⟨free, lowest⟩ := h
    exact (chosen.eq_some free lowest).symm
  | none =>
    cases choice : s.chooseSlot with
    | none => rfl
    | some n =>
      rw [choice] at chosen
      obtain ⟨free, lowest⟩ := chosen
      exact (h.eq_some free lowest)

/-- A trip writes each word once: one state word and the words of one entry. -/
theorem tripOrder_once (slot : Option (Fin 4)) (i : Fin 32) :
    (tripOrder slot i).flatten.Nodup ∧ ∀ a ∈ (tripOrder slot i).flatten, a < Config.xmWords := by
  obtain ⟨low, high⟩ := chronicleOffset_bounds i
  have start : ∀ n : Fin 4, 0x1000 ≤ slotStateOffset n ∧ slotStateOffset n < Config.xmWords := fun n => by
    unfold slotStateOffset Config.xmWords
    omega
  have all : Config.xmWords = 0x3000 := rfl
  cases slot with
  | none =>
    constructor
    · simp [tripOrder, entryOrder]
    · simp [tripOrder, entryOrder]
      omega
  | some n =>
    have := start n
    constructor
    · simp [tripOrder, entryOrder]
      omega
    · simp [tripOrder, entryOrder]
      omega

theorem tripStage_staged {slot : Option (Fin 4)} {i : Fin 32} {a k : Nat} (h : tripStage slot i a = some k) :
    ∃ g, (tripOrder slot i)[k]? = some g ∧ a ∈ g := by
  unfold tripStage at h
  split at h
  case isTrue state =>
    cases h
    exact ⟨_, rfl, by rw [state]; exact List.mem_singleton_self a⟩
  case isFalse =>
  split at h
  case isTrue word =>
    cases h
    have : ∀ j < 6, (tripOrder slot i)[j + 1]? = some [chronicleOffset i + (j + 2)] := by
      intro j small
      interval_cases j <;> rfl
    refine ⟨_, ?_, List.mem_singleton.2 (show a = chronicleOffset i + (a - chronicleOffset i - 2 + 2) by omega)⟩
    rw [← this _ (by omega)]
    congr 1
    omega
  case isFalse =>
  split at h
  case isTrue low =>
    cases h
    exact ⟨_, rfl, List.mem_singleton.2 low⟩
  case isFalse =>
    split at h
    case isTrue high =>
      cases h
      exact ⟨_, rfl, List.mem_singleton.2 high⟩
    case isFalse => cases h

/-- The words of an append, as one run and the post count. -/
theorem appendOrder_flatten (n : Fin 4) (p : Nat) (copying : Bool) :
    (appendOrder n p copying).flatten = List.range' (placeOffset n p) 16 ++ if copying then [] else [slotStateOffset n + 14] := by
  rw [List.range'_eq_map_range]
  exact congrArg (_ ++ ·) (List.append_nil _)

/-- The words of a close, of the entry and of the header. -/
theorem closeOrder_flatten (n : Fin 4) (i : Fin 32) :
    (closeOrder (some n) i).flatten = (chronicleOffset i + 4) :: (chronicleOffset i + 7) ::
      (List.range' (slotStateOffset n + 16) 16 ++ [slotStateOffset n + 15, slotStateOffset n]) := rfl

/-- A hand-off during a capture writes each word once, the close of its window with it. -/
theorem appendOrder_once {n : Fin 4} {p : Nat} (place : p < 120) (copying closes : Bool) (i : Fin 32) :
    (appendOrder n p copying ++ if closes then closeOrder (some n) i else []).flatten.Nodup ∧
      ∀ a ∈ (appendOrder n p copying ++ if closes then closeOrder (some n) i else []).flatten, a < Config.xmWords := by
  obtain ⟨low, high⟩ := chronicleOffset_bounds i
  have slot : 0x1000 ≤ slotStateOffset n ∧ slotStateOffset n + 0x800 ≤ 0x3000 := by
    unfold slotStateOffset
    omega
  have block : placeOffset n p = slotStateOffset n + 128 + 16 * p := rfl
  have all : Config.xmWords = 0x3000 := rfl
  rw [List.flatten_append, appendOrder_flatten]
  have run : ∀ a ∈ List.range' (placeOffset n p) 16 ++ (if copying then [] else [slotStateOffset n + 14]),
      slotStateOffset n + 128 ≤ a ∧ a < 0x3000 ∨ a = slotStateOffset n + 14 := by
    intro a ha
    rw [List.mem_append, List.mem_range'_1] at ha
    rcases ha with ha | ha
    · omega
    · split at ha
      · cases ha
      · exact .inr (List.mem_singleton.1 ha)
  have once : (List.range' (placeOffset n p) 16 ++ if copying then [] else [slotStateOffset n + 14]).Nodup := by
    refine List.nodup_append.2 ⟨List.nodup_range', by split <;> simp, fun a ha b hb => ?_⟩
    rw [List.mem_range'_1] at ha
    split at hb
    · cases hb
    · rw [List.mem_singleton] at hb
      omega
  cases closes with
  | false =>
    rw [if_neg Bool.false_ne_true, List.flatten_nil, List.append_nil]
    refine ⟨once, fun a ha => ?_⟩
    have := run a ha
    omega
  | true =>
    rw [if_pos rfl, closeOrder_flatten]
    have last : ∀ a ∈ (chronicleOffset i + 4) :: (chronicleOffset i + 7) ::
        (List.range' (slotStateOffset n + 16) 16 ++ [slotStateOffset n + 15, slotStateOffset n]),
        a < 0x200 ∨ slotStateOffset n ≤ a ∧ a < slotStateOffset n + 32 ∧ a ≠ slotStateOffset n + 14 := by
      intro a ha
      simp only [List.mem_cons, List.mem_append, List.mem_range'_1, List.not_mem_nil, or_false] at ha
      omega
    refine ⟨List.nodup_append.2 ⟨once, ?_, fun a ha b hb => ?_⟩, fun a ha => ?_⟩
    · simp only [List.nodup_cons, List.nodup_append, List.mem_cons, List.mem_append, List.mem_range'_1,
        List.not_mem_nil, or_false, not_false_iff, List.nodup_nil, and_true]
      exact ⟨by omega, by omega, List.nodup_range', by omega, fun a ha b hb => by omega⟩
    · have := run a ha
      have := last b hb
      omega
    · rcases List.mem_append.1 ha with ha | ha
      · have := run a ha
        omega
      · have := last a ha
        omega

theorem appendStage_staged {n : Fin 4} {p : Nat} {copying closes : Bool} {i : Fin 32} {a k : Nat}
    (h : appendStage n p copying closes i a = some k) :
    ∃ g, (appendOrder n p copying ++ if closes then closeOrder (some n) i else [])[k]? = some g ∧ a ∈ g := by
  unfold appendStage at h
  dsimp only at h
  split at h
  case isTrue block =>
    cases h
    refine ⟨_, rfl, List.mem_map.2 ⟨a - placeOffset n p, ?_, ?_⟩⟩
    · rw [List.mem_range]
      unfold placeOffset
      omega
    · unfold placeOffset
      omega
  case isFalse =>
  split at h
  case isTrue count =>
    cases h
    obtain ⟨rfl, rfl⟩ := count
    exact ⟨_, rfl, List.mem_singleton_self _⟩
  case isFalse =>
  split at h
  case isTrue => cases h
  case isFalse closing =>
  rw [Bool.not_eq_false] at closing
  subst closing
  split at h
  case isTrue entry =>
    cases h
    exact ⟨_, rfl, List.mem_singleton.2 entry⟩
  case isFalse =>
  split at h
  case isTrue marks =>
    cases h
    exact ⟨_, rfl, List.mem_singleton.2 marks⟩
  case isFalse =>
  split at h
  case isTrue place =>
    cases h
    have words : ∀ j < 8, (appendOrder n p copying ++ closeOrder (some n) i)[j + 4]? =
        some [slotStateOffset n + 16 + 2 * j, slotStateOffset n + 17 + 2 * j] := by
      intro j small
      interval_cases j <;> rfl
    refine ⟨_, (congrArg (fun k => (appendOrder n p copying ++ closeOrder (some n) i)[k]?)
      (show (a - slotStateOffset n) / 2 - 4 = (a - slotStateOffset n - 16) / 2 + 4 by omega)).trans (words _ (by omega)), ?_⟩
    simp only [List.mem_cons, List.not_mem_nil, or_false]
    omega
  case isFalse =>
  split at h
  case isTrue count =>
    cases h
    exact ⟨_, rfl, List.mem_singleton.2 count⟩
  case isFalse =>
    split at h
    case isTrue ready =>
      cases h
      exact ⟨_, rfl, List.mem_singleton.2 ready⟩
    case isFalse => cases h

/-- A read that falls with an event finds its words in the order of the event (R131, R134, R151, R152). -/
theorem State.event_inOrder {s t : State} (inv : s.SlotInv) (running : s.startUp ≠ .initPowerOn) (p : Progress) (k : Nat)
    (tripped : t.rc.drive = .tripped) :
    let Ordered := WrittenInOrder (fun a => s.hostReadAt p (BitVec.ofNat 14 a)) (fun a => t.xm.read a)
      (fun a => s.hostReadDuring t p k (BitVec.ofNat 14 a))
    (s.rc.drive ≠ .tripped → ∀ slot, LowestFreeSlot s.xm slot → Ordered (tripStage slot s.tu.nextIndex)) ∧
    (∀ n i, s.rcu.capture = some n → s.tu.openEntry = some i → t.rcu.postCount = s.rcu.postCount + 1 →
      Ordered (appendStage n (s.rcu.preCount + s.rcu.postCount) s.rcu.copy.isSome (decide (t.tu.openEntry = none)) i)) ∧
    (∀ i, s.rcu.capture = none → s.tu.openEntry = some i → t.tu.openEntry = none →
      Ordered fun a => if a = chronicleOffset i + 4 then some 0 else if a = chronicleOffset i + 7 then some 1 else none) := by
  obtain ⟨trip, layout, -⟩ := s.slotInv_iff.1 inv
  obtain ⟨-, -, sized, -⟩ := s.layoutInv_iff.1 layout
  have live : ∀ i, s.tu.openEntry = some i → s.rc.drive = .tripped := fun i opened => by
    by_contra other
    rw [trip.openEntry_none other] at opened
    cases opened
  refine ⟨fun drive slot lowest => ?_, fun n i capture opened appended => ?_, fun i capture opened closed => ?_⟩
  · obtain rfl := lowest.eq_chosen
    have order : s.eventOrder t = tripOrder s.chooseSlot s.tu.nextIndex := by
      unfold State.eventOrder
      rw [if_pos ⟨drive, tripped⟩, trip.capture_none drive, trip.openEntry_none drive]
      simp
    obtain ⟨once, inside⟩ := tripOrder_once s.chooseSlot s.tu.nextIndex
    exact s.hostReadDuring_inOrder t p k _ running (by rwa [order]) (by rwa [order]) fun a j stage => by
      rw [order]
      exact tripStage_staged stage
  · have order : s.eventOrder t = appendOrder n (s.rcu.preCount + s.rcu.postCount) s.rcu.copy.isSome ++
        if decide (t.tu.openEntry = none) then closeOrder (some n) i else [] := by
      unfold State.eventOrder
      rw [if_neg fun h => h.1 (live i opened), capture, opened]
      dsimp only
      rw [if_pos appended, List.nil_append]
      cases t.tu.openEntry with
      | none => simp [tripped]
      | some j => simp
    have place : s.rcu.preCount + s.rcu.postCount < 120 := by
      have := State.place_inside trip sized capture (i := 0) (by decide)
      unfold InsideSlot placeOffset at this
      omega
    obtain ⟨once, inside⟩ := appendOrder_once (n := n) place s.rcu.copy.isSome (decide (t.tu.openEntry = none)) i
    exact s.hostReadDuring_inOrder t p k _ running (by rwa [order]) (by rwa [order]) fun a j stage => by
      rw [order]
      exact appendStage_staged stage
  · have order : s.eventOrder t = [[chronicleOffset i + 4], [chronicleOffset i + 7]] := by
      unfold State.eventOrder
      rw [if_neg fun h => h.1 (live i opened), capture, opened, closed]
      simp [tripped, closeOrder]
    obtain ⟨low, high⟩ := chronicleOffset_bounds i
    have all : Config.xmWords = 0x3000 := rfl
    refine s.hostReadDuring_inOrder t p k _ running (by rw [order]; simp) (by rw [order]; simp; omega) fun a j stage => ?_
    rw [order]
    split at stage
    case isTrue count =>
      cases stage
      exact ⟨_, rfl, List.mem_singleton.2 count⟩
    case isFalse =>
      split at stage
      case isTrue marks =>
        cases stage
        exact ⟨_, rfl, List.mem_singleton.2 marks⟩
      case isFalse => cases stage

/-! ### O43 -/

/-- The words of a report in flight read in its order (R176). -/
theorem State.report_inOrder {s : State} {ws : List Word} (flight : s.rn.inFlight = some ws) (length : ws.length = 240)
    (layout : s.LayoutInv) (p : Progress) :
    WrittenInOrder s.xm.read (s.xm.writeBlock 0x0010 ws).read (s.memoryAt p).read reportStage := by
  have stages : s.stages .report = reportStages ws := by rw [State.stages, flight]
  refine s.memoryAt_inOrder layout p .report ?_ (fun a k stage => ?_) fun a k stage _ b j hb _ => ?_
  · rw [stages, flatten_reportStages, cellRun_offsets]
    exact List.nodup_range'
  · obtain ⟨own, inside, cell⟩ := reportStages_cell s.xm length stage
    rw [stages]
    exact ⟨own, inside, .inl cell⟩
  · obtain ⟨-, -, cell⟩ := reportStages_cell s.xm length hb
    rwa [stages]

/-- The words of a copy in flight read in its order (R150). -/
theorem State.copy_inOrder {s : State} {n : Fin 4} {j : CopyJob} (capture : s.rcu.capture = some n) (copy : s.rcu.copy = some j)
    (header : j.header.length = 127) (post : Word) (layout : s.LayoutInv) (p : Progress) :
    WrittenInOrder s.xm.read ((s.xm.writeAll (j.cells n)).write (slotStateOffset n + 14) post).read (s.memoryAt p).read (copyStage n) := by
  have stages : s.stages .copy = j.stages n := by rw [State.stages, capture, copy]
  have length : (j.stages n).length = j.pre.length + 1 := congrArg (· + 1) (placeStages_length n 0 j.pre)
  refine s.memoryAt_inOrder layout p .copy ?_ (fun a k stage => ?_) fun a k stage => ?_
  · rw [stages]
    exact j.cells_nodup n header
  · obtain ⟨within, cell⟩ := CopyJob.stage_cell s.xm n header post stage
    have inside := within.inside
    rw [stages]
    refine ⟨inside, inside.2, ?_⟩
    split at cell
    · exact .inl cell
    · exact .inr cell
  · rw [stages]
    rintro ⟨g, found, -⟩ b i hb before
    obtain ⟨-, cell⟩ := CopyJob.stage_cell s.xm n header post hb
    have small := (List.getElem?_eq_some_iff.1 found).1
    rwa [if_pos (by omega)] at cell

/-- Settles O43. -/
theorem reportAndRecordCopyComplete : Obligations.ReportAndRecordCopyComplete := by
  refine ⟨fun s ws flight length => ?_, fun s n j capture copy header small => ?_, fun s p address running inside => ?_,
    fun c s t p k inv running _ tripped => s.event_inOrder inv running p k tripped⟩
  · cases waiting : s.rn.waiting with
    | none =>
      have acts : s.completeReport = { s with
          xm := s.xm.writeBlock 0x0010 ws
          rn := { s.rn with inFlight := none, waiting := none, notice := s.rn.notice ||| 8#10 } } := by
        unfold State.completeReport
        rw [flight, waiting]
        rfl
      refine ⟨_, congrArg Host.Outcome.next acts, fun a ha => read_reportBlock s.xm length ha,
        fun layout p => State.report_inOrder flight length layout p, rfl, fun _ => ?_, nofun⟩
      rw [← waiting]
    | some vs =>
      have acts : s.completeReport = { s with
          xm := s.xm.writeBlock 0x0010 ws
          rn := ({ s.rn with inFlight := none, waiting := none, notice := s.rn.notice ||| 8#10 } : ReportUnit).beginReport vs } := by
        unfold State.completeReport
        rw [flight, waiting]
        rfl
      refine ⟨_, congrArg Host.Outcome.next acts, fun a ha => read_reportBlock s.xm length ha,
        fun layout p => State.report_inOrder flight length layout p, rfl, nofun, fun vs' same => ?_⟩
      cases same
      exact ReportUnit.beginReport_spec _ vs
  · have acts : s.completeCopy = { s with
        xm := (s.xm.writeAll (j.cells n)).write (slotStateOffset n + 14) (wordN s.rcu.postCount)
        rcu := { s.rcu with copy := none } } := by
      unfold State.completeCopy
      rw [capture, copy]
      rfl
    exact ⟨_, congrArg Host.Outcome.next acts, fun a ha => CopyJob.read_cells s.xm n header _ ha,
      fun layout p => State.copy_inOrder capture copy header _ layout p, rfl⟩
  · have address_eq : BitVec.ofNat 14 address.toNat = address := by simp
    have reads := State.hostRead_memory { s with xm := s.memoryAt p } running inside
    rwa [address_eq] at reads

end Sys2Proof.Machine

/-! The computation of the torque reference unit (R19 to R31), stage by stage, and what the reports behind it leave (O56, O57). -/

namespace Sys2Proof.Machine

/-! ### The demand phase (R20 to R22) -/

/-- The sequence read is another than that of the computation before (R20, R21). -/
abbrev TorqueUnit.Changed (u : TorqueUnit) (seq : Nat) : Prop := u.lastSeq ≠ none ∧ u.lastSeq ≠ some seq

/-- The count of computations that found the sequence unchanged, behind one more (R21). -/
abbrev TorqueUnit.still (u : TorqueUnit) : Nat := min (u.unchanged + 1) 65535

/-- One more computation without a change enters ZEROING (R21). -/
abbrev TorqueUnit.Zeroes (u : TorqueUnit) : Prop := u.phase ≠ .zeroing ∧ u.sd + u.hs ≤ u.still

/-- The computation leaves FRESH (R21). -/
abbrev TorqueUnit.Stale (u : TorqueUnit) (seq : Nat) : Prop := ¬u.Changed seq ∧ u.phase = .fresh ∧ (u.Zeroes ∨ u.sd ≤ u.still)

theorem TorqueUnit.demandUnchanged_eq (u : TorqueUnit) :
    u.demandUnchanged = { u with
      unchanged := u.still
      phase := if u.Zeroes then .zeroing else if u.phase = .fresh ∧ u.sd ≤ u.still then .hold else u.phase
      tdem := if u.Zeroes then 0 else u.tdem } := by
  have count : satInc u.unchanged = u.still := rfl
  unfold TorqueUnit.demandUnchanged
  dsimp only
  rw [count]
  split
  case h_1 phase =>
    by_cases zero : u.sd + u.hs ≤ u.still
    · simp [zero, phase]
    · by_cases hold : u.sd ≤ u.still <;> simp [zero, hold, phase]
  case h_2 phase => by_cases zero : u.sd + u.hs ≤ u.still <;> simp [zero, phase]
  case h_3 phase => simp [phase]

theorem TorqueUnit.demand_eq (u : TorqueUnit) (seq : Nat) (td : Int) :
    u.demand seq td = { u with
      lastSeq := some seq
      unchanged := if u.Changed seq then 0 else u.still
      phase := if u.Changed seq then .fresh else if u.Zeroes then .zeroing
        else if u.phase = .fresh ∧ u.sd ≤ u.still then .hold else u.phase
      tdem := if u.Changed seq then td else if u.Zeroes then 0 else u.tdem } := by
  unfold TorqueUnit.demand
  split
  case h_1 last =>
    have same : ¬u.Changed seq := fun h => h.1 last
    rw [if_neg same, if_neg same, if_neg same, TorqueUnit.demandUnchanged_eq]
  case h_2 q last =>
    by_cases h : seq = q
    · subst h
      have same : ¬u.Changed seq := fun h => h.2 last
      rw [if_pos rfl, if_neg same, if_neg same, if_neg same, TorqueUnit.demandUnchanged_eq, ← last]
    · have changed : u.Changed seq := by simp [TorqueUnit.Changed, last, Ne.symm h]
      rw [if_neg h, if_pos changed, if_pos changed, if_pos changed]

/-- STALE is an entry into staleness. -/
theorem TorqueUnit.staleEntry_demand (u : TorqueUnit) (seq : Nat) (td : Int) :
    staleEntry u.phase (u.demand seq td).phase = decide (u.Stale seq) := by
  rw [TorqueUnit.demand_eq]
  dsimp only
  by_cases changed : u.Changed seq
  · rw [if_pos changed, decide_eq_false fun stale => stale.1 changed]
    cases u.phase <;> rfl
  rw [if_neg changed]
  cases stale : decide (u.Stale seq) with
  | true =>
    obtain ⟨-, fresh, leaves⟩ := of_decide_eq_true stale
    by_cases zero : u.Zeroes
    · rw [if_pos zero, fresh]
      rfl
    · rw [if_neg zero, if_pos ⟨fresh, leaves.resolve_left zero⟩, fresh]
      rfl
  | false =>
    have remains := of_decide_eq_false stale
    by_cases fresh : u.phase = .fresh
    · have zero : ¬u.Zeroes := fun zero => remains ⟨changed, fresh, .inl zero⟩
      have hold : ¬(u.phase = .fresh ∧ u.sd ≤ u.still) := fun hold => remains ⟨changed, fresh, .inr hold.2⟩
      rw [if_neg zero, if_neg hold, fresh]
      rfl
    · unfold staleEntry
      rw [beq_eq_false_iff_ne.2 fresh, Bool.false_and]

/-- The demand read: the torque unit, the counter of stale entries and STALE (R20 to R22). -/
theorem State.readDemand_eq (s : State) :
    s.readDemand = { s with
      tru := { s.tru.demand (s.xm.read 0).toNat (s.xm.read 1).toInt with
        staleEntries := if s.tru.Stale (s.xm.read 0).toNat then s.tru.staleEntries.plus 1 else s.tru.staleEntries }
      rn := { s.rn with
        notice := if s.tru.Stale (s.xm.read 0).toNat then s.rn.notice ||| Notice.stale.mark else s.rn.notice } } := by
  have entries : (s.tru.demand (s.xm.read 0).toNat (s.xm.read 1).toInt).staleEntries = s.tru.staleEntries := by
    rw [TorqueUnit.demand_eq]
  unfold State.readDemand
  dsimp only
  rw [TorqueUnit.staleEntry_demand, entries]
  by_cases stale : s.tru.Stale (s.xm.read 0).toNat
  · rw [decide_eq_true stale, if_pos stale, if_pos stale]
    rfl
  · rw [decide_eq_false stale, if_neg stale, if_neg stale]
    rfl

theorem State.readDemand_notice (s : State) :
    s.readDemand.rn.notice =
      if s.tru.Stale (s.xm.read 0).toNat then s.rn.notice ||| Notice.stale.mark else s.rn.notice := by
  rw [State.readDemand_eq]

/-! ### The stages of a computation (R10, R19) -/

/-- The demand read and the torque of an expiry's computation are those of the state before it: neither reads the timer. -/
theorem State.torque_truDue (s : State) (due : Nat) :
    (s.truDue due).readDemand.computeTorque = s.readDemand.computeTorque.truDue due := by
  rw [State.readDemand_eq, State.readDemand_eq]
  unfold State.truDue
  dsimp only
  rw [TorqueUnit.demand_eq, TorqueUnit.demand_eq]
  rfl

/-- The stop-hold condition (R10). -/
theorem State.holdCondition_iff (s : State) : s.holdCondition = true ↔ s.tru.tcmd = 0 ∧ s.pt.speed.natAbs ≤ s.rc.creep := by
  unfold State.holdCondition
  rw [Bool.and_eq_true, beq_iff_eq, decide_eq_true_iff]
  rfl

theorem State.evalStopHold_eq (s : State) :
    s.evalStopHold = { s with rc := { s.rc with
      stopHold :=
        if s.rc.drive = .stopping then
          if s.tru.tcmd = 0 ∧ s.pt.speed.natAbs ≤ s.rc.creep then some (s.rc.stopHold.getD (s.now + s.rc.stopHoldTime * 1000))
          else none
        else s.rc.stopHold } } := by
  unfold State.evalStopHold
  by_cases stopping : s.rc.drive = .stopping
  · rw [if_pos stopping, if_pos stopping]
    by_cases rests : s.tru.tcmd = 0 ∧ s.pt.speed.natAbs ≤ s.rc.creep
    · rw [if_pos rests, if_pos (s.holdCondition_iff.2 rests)]
      cases s.rc.stopHold <;> rfl
    · rw [if_neg rests, if_neg fun holds => rests (s.holdCondition_iff.1 holds)]
  · rw [if_neg stopping, if_neg stopping]

theorem State.countWatches_eq (s : State) :
    s.countWatches = { s with tru := { s.tru with
      excessCount := if s.rc.drive.live then if s.excessCondition then s.tru.excessCount + 1 else 0 else s.tru.excessCount
      imbCount := if s.rc.drive.live then if s.imbalanceCondition then s.tru.imbCount + 1 else 0 else s.tru.imbCount } } := by
  unfold State.countWatches
  split <;> rfl

/-- The computation as far as the counts of the watches: the stop-hold timer, the torque unit, and STALE; the watches take the limits
and references of the same computation. -/
theorem State.counted_eq (s : State) :
    s.counted = { s.readDemand.computeTorque with
      rc := s.readDemand.computeTorque.evalStopHold.rc
      tru := { s.readDemand.computeTorque.tru with
        excessCount :=
          if s.rc.drive.live then
            if s.readDemand.computeTorque.excessCondition then s.readDemand.computeTorque.tru.excessCount + 1 else 0
          else s.readDemand.computeTorque.tru.excessCount
        imbCount :=
          if s.rc.drive.live then
            if s.readDemand.computeTorque.imbalanceCondition then s.readDemand.computeTorque.tru.imbCount + 1 else 0
          else s.readDemand.computeTorque.tru.imbCount } } := by
  have drive : s.readDemand.computeTorque.rc.drive = s.rc.drive := by simp
  unfold State.counted
  rw [State.countWatches_eq, State.evalStopHold_eq, ← drive]
  rfl

theorem State.computeTorque_counts (s : State) :
    s.readDemand.computeTorque.tru.excessCount = s.tru.excessCount ∧ s.readDemand.computeTorque.tru.imbCount = s.tru.imbCount := by
  rw [State.readDemand_eq, TorqueUnit.demand_eq]
  exact ⟨rfl, rfl⟩

@[simp] theorem State.computed_tru (s : State) :
    s.computed.tru = { s.counted.tru with snapNumber := (s.tru.snapNumber + 1) % 65536 } := by
  rw [← s.counted_snapNumber]
  simp [State.computed, State.handOff]

/-! ### The reports behind a computation (R34, R129, R132) -/

/-- What a trip keeps and leaves of the torque unit, the history ring and the units that take no part in it (R31, R129). -/
structure State.Trips (s t : State) : Prop where
  drive : t.rc.drive = .tripped
  tru : t.tru = { s.tru with tcmd := 0, iref := ⟨0, 0⟩, excessCount := 0, imbCount := 0 }
  ring : t.rcu.ring = s.rcu.ring
  fillCount : t.rcu.fillCount = s.rcu.fillCount
  lastHandoff : t.rcu.lastHandoff = s.rcu.lastHandoff
  notice : ∀ i, i ≠ 1 → t.rn.notice.getLsbD i = s.rn.notice.getLsbD i

theorem State.firstCause_trips (s : State) (c : Cause) : s.Trips (s.firstCause c) := by
  obtain ⟨job, rcu⟩ := s.firstCause_rcu c
  refine ⟨by simp, by simp, ?_, ?_, ?_, fun i other => ?_⟩
  case refine_4 => simp [Notice.mark_getLsbD, Notice.bitNumber, other]
  all_goals
    rw [rcu]
    cases s.chooseSlot <;> rfl

/-- A cause reported behind a trip changes the trip unit alone. -/
theorem State.Trips.reportIf {s t : State} (h : s.Trips t) (b : Bool) (c : Cause) : s.Trips (t.reportIf b c) := by
  cases b with
  | false => exact h
  | true =>
    have further : t.reportIf true c = t.furtherCause c := if_pos h.drive
    obtain ⟨drive, tru, ring, fillCount, lastHandoff, notice⟩ := h
    rw [further]
    constructor <;> simpa

/-- A watch finds a cause in STARTING, RUNNING and STOPPING only (R32, R33). -/
theorem State.live_of_found {s : State} (found : s.counted.excessFound = true ∨ s.counted.imbalanceFound = true) :
    s.rc.drive.live = true := by
  rw [← s.counted_drive]
  rcases found with found | found
  · rw [State.excessFound, Bool.and_assoc, Bool.and_eq_true] at found
    exact found.1
  · rw [State.imbalanceFound, Bool.and_assoc, Bool.and_eq_true] at found
    exact found.1

theorem State.computed_drive (s : State) : s.computed.rc.drive = s.rc.drive := by simp [State.computed, State.counted_drive]

/-- A computation reports nothing, or it trips the live drive (R32 to R34). -/
theorem State.compute_cases (s : State) : s.compute = s.computed ∨ s.rc.drive.live = true ∧ s.computed.Trips s.compute := by
  have trips : s.rc.drive.live = true → ∀ c, s.computed.Trips (s.computed.reportIf true c) := fun live c => by
    have first : s.computed.rc.drive ≠ .tripped := by
      rw [State.computed_drive]
      rintro tripped
      rw [tripped] at live
      cases live
    rw [show s.computed.reportIf true c = s.computed.firstCause c from if_neg first]
    exact s.computed.firstCause_trips c
  rw [State.compute_eq]
  cases excess : s.counted.excessFound with
  | true =>
    have live := State.live_of_found (.inl excess)
    exact .inr ⟨live, (trips live _).reportIf _ _⟩
  | false =>
    rw [State.reportIf_of_false rfl]
    cases uneven : s.counted.imbalanceFound with
    | true =>
      have live := State.live_of_found (.inr uneven)
      exact .inr ⟨live, trips live _⟩
    | false => exact .inl rfl

/-! ### The hand-off's notice (R152) -/

theorem State.completeRecord_rn (s : State) :
    s.completeRecord.rn = if s.rcu.capture = none then s.rn else { s.rn with notice := s.rn.notice ||| Notice.record.mark } := by
  unfold State.completeRecord
  split
  case h_1 capture => rw [if_pos capture]
  case h_2 n capture =>
    rw [if_neg (by rw [capture]; nofun)]
    simp [State.notify]

/-- A hand-off raises no notice but RECORD. -/
theorem State.handOff_notice (s : State) {i : Nat} (other : i ≠ 2) : s.handOff.rn.notice.getLsbD i = s.rn.notice.getLsbD i := by
  have close : ∀ u : State, u.closeWindow.rn.notice.getLsbD i = u.rn.notice.getLsbD i := fun u => by
    simp only [State.closeWindow, State.completeRecord_rn, State.closeEntry_keeps]
    split
    · rfl
    · simp [Notice.mark_getLsbD, Notice.bitNumber, other]
  have count : ∀ u : State, u.countWindow.rn.notice.getLsbD i = u.rn.notice.getLsbD i := fun u => by
    unfold State.countWindow
    split
    · rfl
    split
    · exact close u
    · rfl
  unfold State.handOff
  dsimp only
  rw [count]
  simp

/-! ### An expiry of the TRU period -/

/-- The torque unit behind an expiry's computation, but for its reports (R19 to R33). -/
theorem State.due_tru (s : State) (due : Nat) :
    (s.truDue due).computed.tru = { s.readDemand.computeTorque.tru with
      timer := some (max s.now due + s.tru.period)
      excessCount :=
        if s.rc.drive.live then if s.readDemand.computeTorque.excessCondition then s.tru.excessCount + 1 else 0
        else s.tru.excessCount
      imbCount :=
        if s.rc.drive.live then if s.readDemand.computeTorque.imbalanceCondition then s.tru.imbCount + 1 else 0
        else s.tru.imbCount
      snapNumber := (s.tru.snapNumber + 1) % 65536 } := by
  obtain ⟨excess, uneven⟩ := s.computeTorque_counts
  have period : s.readDemand.computeTorque.tru.period = s.tru.period := by
    rw [State.readDemand_eq, TorqueUnit.demand_eq]
    rfl
  have now : s.readDemand.computeTorque.now = s.now := by simp
  rw [State.computed_tru, State.counted_eq, State.torque_truDue, ← excess, ← uneven, ← period, ← now]
  rfl

/-- The run control behind an expiry's computation, but for its reports: the stop-hold condition is evaluated with the computation's
Tcmd (R10). -/
theorem State.due_rc (s : State) (due : Nat) :
    (s.truDue due).computed.rc = { s.rc with
      stopHold :=
        if s.rc.drive = .stopping then
          if s.readDemand.computeTorque.tru.tcmd = 0 ∧ s.pt.speed.natAbs ≤ s.rc.creep then
            some (s.rc.stopHold.getD (max s.now due + s.rc.stopHoldTime * 1000))
          else none
        else s.rc.stopHold } := by
  have computed : (s.truDue due).computed.rc = (s.truDue due).counted.rc := by simp [State.computed]
  have rc : s.readDemand.computeTorque.rc = s.rc := by simp
  have pt : s.readDemand.computeTorque.pt = s.pt := by simp
  have now : s.readDemand.computeTorque.now = s.now := by simp
  rw [computed, State.counted_eq, State.torque_truDue, State.evalStopHold_eq, ← rc, ← pt, ← now]
  rfl

/-- The notices behind an expiry's computation: STALE as the demand read leaves it. -/
theorem State.due_notice (s : State) (due : Nat) {i : Nat} (other : i ≠ 2) :
    (s.truDue due).computed.rn.notice.getLsbD i = s.readDemand.rn.notice.getLsbD i := by
  have computed : (s.truDue due).computed.rn = (s.truDue due).counted.handOff.rn := by simp [State.computed]
  have torque : s.readDemand.rn = s.readDemand.computeTorque.rn := by simp
  rw [computed, State.handOff_notice _ other, State.counted_eq, State.torque_truDue, torque]
  rfl

/-- An expiry leaves what its computation leaves, or a trip of it. -/
theorem State.truExpires_cases {s : State} {due : Nat} (timer : s.tru.timer = some due) :
    s.truExpires = (s.truDue due).computed ∨ s.rc.drive.live = true ∧ (s.truDue due).computed.Trips s.truExpires := by
  rw [State.truExpires_eq timer]
  exact (s.truDue due).compute_cases

/-- An expiry that leaves the drive state reports nothing. -/
theorem State.truExpires_stays {s : State} {due : Nat} (timer : s.tru.timer = some due) (stays : s.truExpires.rc.drive = s.rc.drive) :
    s.truExpires = (s.truDue due).computed := by
  refine (State.truExpires_cases timer).resolve_right fun ⟨live, trips⟩ => ?_
  rw [← stays, trips.drive] at live
  cases live

theorem State.truExpires_tru {s : State} {due : Nat} (timer : s.tru.timer = some due) :
    s.truExpires.tru = { (s.truDue due).computed.tru with
      tcmd := s.truExpires.tru.tcmd, iref := s.truExpires.tru.iref
      excessCount := s.truExpires.tru.excessCount, imbCount := s.truExpires.tru.imbCount } := by
  rcases State.truExpires_cases timer with same | ⟨-, trips⟩
  · rw [same]
  · rw [trips.tru]

theorem State.truExpires_notice {s : State} {due : Nat} (timer : s.tru.timer = some due) {i : Nat} (record : i ≠ 2) (trip : i ≠ 1) :
    s.truExpires.rn.notice.getLsbD i = s.readDemand.rn.notice.getLsbD i := by
  rcases State.truExpires_cases timer with same | ⟨-, trips⟩
  · rw [same, State.due_notice _ _ record]
  · rw [trips.notice i trip, State.due_notice _ _ record]

/-- Settles O56. -/
theorem demandPhaseFollowsTheSequence : Obligations.DemandPhaseFollowsTheSequence := by
  intro s due timer seq changed n zero stale
  have torque : s.truExpires.tru = _ := State.truExpires_tru timer
  rw [State.due_tru, State.readDemand_eq, TorqueUnit.demand_eq] at torque
  have notice : s.truExpires.rn.notice.getLsbD 7 = s.readDemand.rn.notice.getLsbD 7 := State.truExpires_notice timer (by decide) (by decide)
  refine ⟨_, rfl, congrArg TorqueUnit.lastSeq torque, congrArg TorqueUnit.unchanged torque, congrArg TorqueUnit.phase torque,
    congrArg TorqueUnit.tdem torque, congrArg TorqueUnit.staleEntries torque, fun h => ?_, fun h => ?_⟩
  · have raised : s.readDemand.rn.notice = s.rn.notice ||| Notice.stale.mark := s.readDemand_notice.trans (if_pos h)
    rw [notice, raised]
    simp [Notice.mark_getLsbD, Notice.bitNumber]
  · rw [notice, s.readDemand_notice.trans (if_neg h)]

/-! ### Limits, Tcmd and references (R23 to R31) -/

/-- The limits do not hang on the demand read. -/
theorem State.limits_readDemand (s : State) :
    s.readDemand.positiveLimits = s.positiveLimits ∧ s.readDemand.holdbackLimits = s.holdbackLimits := by
  rw [State.readDemand_eq, TorqueUnit.demand_eq]
  exact ⟨rfl, rfl⟩

theorem State.torque_eq (s : State) :
    s.readDemand.computeTorque.tru = { s.readDemand.tru with
      lim := s.positiveLimits
      lneg := s.holdbackLimits
      tcmd := s.readDemand.tru.nextTcmd s.rc.drive s.positiveLimits.total s.holdbackLimits.total
      iref := references (s.readDemand.tru.nextTcmd s.rc.drive s.positiveLimits.total s.holdbackLimits.total) s.readDemand.tru.share
        s.positiveLimits s.holdbackLimits } := by
  obtain ⟨lim, lneg⟩ := s.limits_readDemand
  have rc : s.readDemand.rc = s.rc := by simp
  unfold State.computeTorque
  dsimp only
  rw [lim, lneg, rc]

/-- What the demand read keeps of the torque unit. -/
theorem State.readDemand_settings (s : State) :
    s.readDemand.tru.tcmd = s.tru.tcmd ∧ s.readDemand.tru.share = s.tru.share ∧ s.readDemand.tru.stopRamp = s.tru.stopRamp ∧
      s.readDemand.tru.runRamp = s.tru.runRamp := by
  rw [State.readDemand_eq, TorqueUnit.demand_eq]
  exact ⟨rfl, rfl, rfl, rfl⟩

theorem TorqueUnit.target_eq (u : TorqueUnit) (drive : DriveState) {pos neg : Int} (hpos : 0 ≤ pos) (hneg : 0 ≤ neg) :
    u.target drive pos neg = if drive = .starting ∨ drive = .running then max (-neg) (min pos u.tdem) else 0 := by
  have clamped : clamp u.tdem (-neg) pos = max (-neg) (min pos u.tdem) := clamp_eq (by omega)
  unfold TorqueUnit.target
  cases drive <;> simp [clamped]

theorem TorqueUnit.ramp_eq (u : TorqueUnit) (drive : DriveState) :
    u.ramp drive = if drive = .stopping then (u.stopRamp : Int) else u.runRamp := rfl

/-- The next Tcmd by minima and maxima (R28). -/
theorem TorqueUnit.nextTcmd_eq (u : TorqueUnit) (drive : DriveState) {pos neg : Int} (hpos : 0 ≤ pos) (hneg : 0 ≤ neg) :
    u.nextTcmd drive pos neg =
      if drive.live then
        max (-neg) (min pos (u.tcmd + max (-u.ramp drive) (min (u.ramp drive) (u.target drive pos neg - u.tcmd))))
      else 0 := by
  have ramp : 0 ≤ u.ramp drive := by
    rw [TorqueUnit.ramp_eq]
    split <;> exact Int.natCast_nonneg _
  unfold TorqueUnit.nextTcmd
  rw [clamp_eq (by omega), clamp_eq (by omega)]

/-- Settles O57. -/
theorem torqueIsLimitedRampedAndShared : Obligations.TorqueIsLimitedRampedAndShared := by
  intro s due timer ascending cut lim lneg pos neg within
  have torque := State.truExpires_tru timer
  rw [State.due_tru, State.torque_eq] at torque
  have limits : s.positiveLimits = ⟨lim .a, lim .b⟩ := rfl
  have holdback : s.holdbackLimits = ⟨lneg .a, lneg .b⟩ := rfl
  have limA : 0 ≤ lim .a := State.positiveLimits_nonneg ascending .a
  have limB : 0 ≤ lim .b := State.positiveLimits_nonneg ascending .b
  have lnegA : 0 ≤ lneg .a := s.holdbackLimits_nonneg .a
  have lnegB : 0 ≤ lneg .b := s.holdbackLimits_nonneg .b
  have hpos : 0 ≤ pos := Int.add_nonneg limA limB
  have hneg : 0 ≤ neg := Int.add_nonneg lnegA lnegB
  refine ⟨_, rfl, fun ch => ⟨?_, ?_⟩, ?_⟩
  · rw [torque]
    cases ch <;> rfl
  · rw [torque]
    cases ch <;> rfl
  intro target ramp tcmd first second
  obtain ⟨before, share, stop, run⟩ := s.readDemand_settings
  have tdem : s.truExpires.tru.tdem = s.readDemand.tru.tdem := by rw [torque]
  have next : s.readDemand.tru.nextTcmd s.rc.drive s.positiveLimits.total s.holdbackLimits.total = tcmd := by
    have total : s.positiveLimits.total = pos ∧ s.holdbackLimits.total = neg := ⟨rfl, rfl⟩
    rw [total.1, total.2, TorqueUnit.nextTcmd_eq _ _ hpos hneg, TorqueUnit.target_eq _ _ hpos hneg, TorqueUnit.ramp_eq, before, stop, run,
      ← tdem]
  have bounds := s.readDemand.tru.nextTcmd_mem s.rc.drive hpos hneg
  have total : s.readDemand.tru.nextTcmd s.rc.drive pos neg = tcmd := next
  rw [total] at bounds
  obtain ⟨shared, -⟩ := references_spec tcmd s.tru.share s.positiveLimits s.holdbackLimits limA limB lnegA lnegB bounds.1 bounds.2
  have torqueTcmd : s.readDemand.computeTorque.tru.tcmd = tcmd := by
    rw [State.torque_eq]
    exact next
  have torqueIref : s.readDemand.computeTorque.tru.iref = ⟨tcmd - second, second⟩ := by
    rw [State.torque_eq]
    dsimp only
    rw [next, share, shared]
    rfl
  refine ⟨fun stays => ?_, fun moves => ?_⟩
  · rw [State.truExpires_stays timer stays, State.due_tru, State.due_rc, torqueTcmd]
    exact ⟨rfl, torqueIref, fun stopping => if_pos stopping⟩
  · rcases State.truExpires_cases timer with same | ⟨-, trips⟩
    · rw [same, State.computed_drive] at moves
      exact absurd rfl moves
    · rw [trips.tru]
      exact ⟨trips.drive, rfl, rfl⟩

end Sys2Proof.Machine

/-! The snapshot of a TRU period, its fold, and the watches (R32 to R36, R87, R144, R145; O55, O58). -/

namespace Sys2Proof.Machine

/-! ### The hand-off and the fold -/

theorem State.handOff_lastHandoff (s : State) : s.handOff.rcu.lastHandoff = s.now := by
  unfold State.handOff
  dsimp only
  rw [(State.countWindow_rcu _).1, State.appendSnapshot_rcu]
  rfl

theorem State.appendSnapshot_idle {s : State} (capture : s.rcu.capture = none) (x : Snapshot) : s.appendSnapshot x = s := by
  unfold State.appendSnapshot
  rw [capture]

theorem State.countWindow_idle {s : State} (window : s.tu.window = none) : s.countWindow = s := by
  unfold State.countWindow
  rw [window]

/-- Without a capture and an OPEN window a hand-off places its snapshot in the ring, and no more. -/
theorem State.handOff_idle {s : State} (capture : s.rcu.capture = none) (window : s.tu.window = none) :
    s.handOff = { s with
      tru := { s.tru with snapNumber := (s.tru.snapNumber + 1) % 65536 }
      rcu := { s.rcu with ring := s.handOff.rcu.ring, fillCount := s.handOff.rcu.fillCount, lastHandoff := s.now } } := by
  generalize placed : State.placeSnapshot { s with tru := { s.tru with snapNumber := (s.tru.snapNumber + 1) % 65536 } } s.nextSnapshot = p
  have appended : p.appendSnapshot s.nextSnapshot = p := State.appendSnapshot_idle (by rw [← placed]; exact capture) _
  have same : s.handOff = p := by
    have counts : s.handOff = (p.appendSnapshot s.nextSnapshot).countWindow := by rw [← placed]; rfl
    rw [counts, appended, State.countWindow_idle (by rw [← placed]; exact window)]
  rw [same, ← placed]
  rfl

theorem State.counted_frame (s : State) :
    s.counted = { s with
      rc := { s.rc with stopHold := s.counted.rc.stopHold }
      tru := s.counted.tru
      rn := { s.rn with notice := s.counted.rn.notice } } := by
  rw [State.counted_eq, State.evalStopHold_eq, State.readDemand_eq]
  rfl

theorem State.computed_rc (s : State) : s.computed.rc = { s.rc with stopHold := s.computed.rc.stopHold } := by
  have counted : s.computed.rc = s.counted.rc := by simp [State.computed]
  rw [counted, State.counted_frame]

theorem State.computed_idle {s : State} (capture : s.rcu.capture = none) (window : s.tu.window = none) :
    s.computed = { s with
      rc := { s.rc with stopHold := s.computed.rc.stopHold }
      tru := s.computed.tru
      pt := { s.pt with table := s.computed.pt.table }
      rcu := { s.rcu with ring := s.computed.rcu.ring, fillCount := s.computed.rcu.fillCount, lastHandoff := s.now }
      rn := { s.rn with notice := s.computed.rn.notice } } := by
  have fold : s.counted.handOff.sectorFold = { s.counted.handOff with pt := { s.pt with table := s.computed.pt.table } } := by
    have pt := s.computed_pt
    unfold State.computed at pt ⊢
    rw [← pt]
    unfold State.sectorFold
    split <;> rfl
  have counted : s.counted.rcu.capture = none ∧ s.counted.tu.window = none := by
    rw [State.counted_frame]
    exact ⟨capture, window⟩
  obtain ⟨counted, open_⟩ := counted
  have computed : s.computed = s.counted.handOff.sectorFold := rfl
  rw [computed, fold, State.handOff_idle counted open_, State.counted_frame]

/-- The measured total is folded into the entry of the sector, in RUNNING alone (R36, R87). -/
theorem State.computed_table (s : State) (j : Nat) :
    s.computed.pt.table[j]? = (s.pt.table[j]?).map fun e =>
      if j = s.pt.sector ∧ s.rc.drive = .running then e.foldTorque s.measuredTotal else e := by
  have drive : s.counted.handOff.rc.drive = s.rc.drive := by simp [State.counted_drive]
  have pt : s.counted.handOff.pt = s.pt := by simp [State.counted]
  have total : s.counted.handOff.measuredTotal = s.measuredTotal := by
    unfold State.measuredTotal
    simp [State.counted]
  unfold State.computed State.sectorFold
  rw [drive, total]
  by_cases running : s.rc.drive = .running
  · rw [if_pos running]
    unfold State.foldTorque
    dsimp only
    rw [getElem?_modifyAt, pt]
    simp only [running, and_true]
  · rw [if_neg running, pt]
    simp [running]

theorem WorkEntry.foldTorque_eq (e : WorkEntry) (m : Int) :
    e.foldTorque m =
      if e.count < 65535 then
        { e with
          count := e.count + 1
          sum := e.sum + m
          tmax := some ((e.tmax.map fun v => max v m).getD m)
          tmin := some ((e.tmin.map fun v => min v m).getD m) }
      else { e with countFull := true } := by
  unfold WorkEntry.foldTorque
  cases e.tmax <;> cases e.tmin <;> rfl

/-! ### The snapshot (R145) -/

/-- A maximum over some of the elements of a list bounds each of them, and is one of them or the start. -/
theorem foldl_maxIf {α : Type} (p : α → Bool) (f : α → Nat) (l : List α) (b : Nat) :
    b ≤ l.foldl (fun m c => if p c then max m (f c) else m) b ∧
      (∀ c ∈ l, p c = true → f c ≤ l.foldl (fun m c => if p c then max m (f c) else m) b) ∧
      (l.foldl (fun m c => if p c then max m (f c) else m) b = b ∨
        ∃ c ∈ l, p c = true ∧ f c = l.foldl (fun m c => if p c then max m (f c) else m) b) := by
  induction l generalizing b with
  | nil => exact ⟨le_refl b, nofun, .inl rfl⟩
  | cons c l ih =>
    rw [List.foldl_cons]
    obtain ⟨start, bound, attained⟩ := ih (if p c then max b (f c) else b)
    by_cases counts : p c = true
    · rw [if_pos counts] at start bound attained ⊢
      refine ⟨by omega, List.forall_mem_cons.2 ⟨fun _ => by omega, bound⟩, ?_⟩
      rcases attained with same | ⟨d, mem, hd⟩
      · rcases Nat.le_total b (f c) with le | le
        · exact .inr ⟨c, List.mem_cons_self, counts, by omega⟩
        · exact .inl (by omega)
      · exact .inr ⟨d, List.mem_cons_of_mem c mem, hd⟩
    · rw [if_neg counts] at start bound attained ⊢
      refine ⟨start, List.forall_mem_cons.2 ⟨fun h => absurd h counts, bound⟩, attained.imp id ?_⟩
      rintro ⟨d, mem, hd⟩
      exact ⟨d, List.mem_cons_of_mem c mem, hd⟩

/-- The largest last RMS of the channels enabled and not in FAULT (R117). -/
theorem VibrationWatch.worstRms_spec (v : VibrationWatch) :
    let counted := fun i => (v.channels.get i).level ≠ .disabled ∧ (v.channels.get i).level ≠ .fault
    (∀ i, counted i → (v.channels.get i).lastRms ≤ v.worstRms) ∧
      ((∃ i, counted i ∧ (v.channels.get i).lastRms = v.worstRms) ∨ v.worstRms = 0) := by
  intro counted
  have counts : ∀ i, ((v.channels.get i).enabled && (v.channels.get i).level != .fault) = true ↔ counted i := fun i => by
    simp [SensorChannel.enabled, counted]
  obtain ⟨-, bound, attained⟩ := foldl_maxIf (fun c : SensorChannel => c.enabled && c.level != .fault) (·.lastRms) v.channels.toList 0
  refine ⟨fun i hi => bound _ ((Octet.mem_toList _ _).2 ⟨i, rfl⟩) ((counts i).2 hi), ?_⟩
  rcases attained with zero | ⟨c, mem, hc, same⟩
  · exact .inr zero
  · obtain ⟨i, rfl⟩ := (Octet.mem_toList _ _).1 mem
    exact .inl ⟨i, (counts i).1 hc, same⟩

/-! ### O55 -/

theorem State.counted_rcu (s : State) : s.counted.rcu = s.rcu := by simp [State.counted]

theorem State.counted_tu (s : State) : s.counted.tu = s.tu := by simp [State.counted]

/-- Without a capture and an OPEN window a computation raises no notice but STALE. -/
theorem State.due_notice_idle {s : State} (due : Nat) (capture : s.rcu.capture = none) (window : s.tu.window = none) {i : Nat}
    (other : i ≠ 7) : (s.truDue due).computed.rn.notice.getLsbD i = s.rn.notice.getLsbD i := by
  have handed := State.handOff_idle (s := (s.truDue due).counted) (by rw [State.counted_rcu]; exact capture)
    (by rw [State.counted_tu]; exact window)
  have demand : (s.truDue due).computed.rn = (s.truDue due).readDemand.rn := by
    have fold : (s.truDue due).computed.rn = (s.truDue due).counted.handOff.rn := by simp [State.computed]
    rw [fold, handed]
    simp [State.counted]
  rw [demand, State.readDemand_notice]
  split
  · simp [State.truDue, Notice.mark_getLsbD, Notice.bitNumber, other]
  · rfl

/-- What an expiry's reports keep of the history ring. -/
theorem State.truExpires_ring {s : State} {due : Nat} (timer : s.tru.timer = some due) :
    s.truExpires.rcu.ring = (s.truDue due).computed.rcu.ring ∧
      s.truExpires.rcu.fillCount = (s.truDue due).computed.rcu.fillCount ∧
      s.truExpires.rcu.lastHandoff = (s.truDue due).computed.rcu.lastHandoff := by
  rcases State.truExpires_cases timer with same | ⟨-, trips⟩
  · rw [same]
    exact ⟨rfl, rfl, rfl⟩
  · exact ⟨trips.ring, trips.fillCount, trips.lastHandoff⟩

theorem State.computed_rcu (s : State) : s.computed.rcu = s.counted.handOff.rcu := by simp [State.computed]

theorem State.truExpires_table {s : State} {due : Nat} (timer : s.tru.timer = some due) :
    s.truExpires.pt = (s.truDue due).computed.pt := by
  rw [State.truExpires_eq timer, State.compute_eq]
  simp

/-- What a computation keeps outside exchange memory, the torque unit, the trip unit and record capture. -/
theorem State.computed_links (s : State) : s.computed.link = s.link ∧ s.computed.reg = s.reg ∧ s.computed.tloss = s.tloss := by
  simp [State.computed, State.counted]

/-- Settles O55. -/
theorem truExpiryTakesASnapshotAndFolds : Obligations.TruExpiryTakesASnapshotAndFolds := by
  intro s due timer now number place m
  have torque := State.truExpires_tru timer
  have settings := torque
  rw [State.due_tru, State.torque_eq, State.readDemand_eq, TorqueUnit.demand_eq] at settings
  obtain ⟨ring, fill, last⟩ := State.truExpires_ring timer
  have table := State.truExpires_table timer
  have counted := (s.truDue due).counted_frame
  have rcu := (s.truDue due).counted_rcu
  have snapNumber := (s.truDue due).counted_snapNumber
  rw [State.computed_rcu] at ring fill last
  have lastHandoff := (s.truDue due).counted.handOff_lastHandoff
  obtain ⟨placed, filled, -, -⟩ := (s.truDue due).counted.handOff_rcu
  have numbered : (s.truDue due).counted.nextSnapshot.number = number := congrArg (fun k => (k + 1) % 65536) snapNumber
  rw [numbered, rcu] at placed
  rw [rcu] at filled
  have stays : s.truExpires.rc.drive = s.rc.drive → s.truExpires = (s.truDue due).computed := State.truExpires_stays timer
  refine ⟨_, (s.truDue due).counted.nextSnapshot, rfl, ?_, ?_, ?_, ?_, ?_, fun p other => ?_, ?_, ?_, ?_, fun j => ?_, ?_, ?_, ?_, ?_,
    fun same => ?_, fun same capture window => ?_⟩
  case refine_1 =>
    rw [State.truExpires_eq timer]
    simp [State.truDue, now]
  case refine_2 => rw [settings]
  case refine_3 => rw [settings]
  case refine_4 => rw [settings]
  case refine_5 => rw [ring, placed, ringAt_cons_filter]; exact if_pos rfl
  case refine_6 => rw [ring, placed, ringAt_cons_filter]; exact if_neg other
  case refine_7 => exact fill.trans filled
  case refine_8 => exact last.trans (lastHandoff.trans (congrArg State.now counted))
  case refine_9 =>
    rw [State.computed_tru] at torque
    refine ⟨numbered, congrArg (·.rc.drive) counted, (congrArg TorqueUnit.phase torque).symm, congrArg (·.vw.derate) counted,
      congrArg (·.rc.isolated) counted, (congrArg TorqueUnit.tdem torque).symm, (congrArg TorqueUnit.lim torque).symm,
      (congrArg TorqueUnit.lneg torque).symm, fun same => ?_, congrArg (fun u => u.link.map (·.imeas)) counted,
      congrArg (fun u => u.reg.map (·.lastVcmd)) counted, congrArg (·.pt.speed) counted, congrArg (·.pt.pc) counted,
      congrArg (·.pt.sector) counted, congrArg (·.pt.tracking) counted, fun i => ?_, ?_⟩
    · rw [stays same, State.computed_tru]
      exact ⟨rfl, rfl⟩
    · have levels : (s.truDue due).counted.nextSnapshot.levels = s.vw.channels.map (·.level) :=
        congrArg (·.vw.channels.map (·.level)) counted
      rw [levels, Octet.get_map]
    · have worst : (s.truDue due).counted.nextSnapshot.worstRms = s.vw.worstRms := congrArg (·.vw.worstRms) counted
      rw [worst]
      exact s.vw.worstRms_spec
  case refine_10 =>
    rw [table, State.computed_table]
    simp only [WorkEntry.foldTorque_eq]
    rfl
  case refine_11 => rw [table, State.computed_pt]; rfl
  case refine_12 => simp
  case refine_13 => simp
  case refine_14 => simp
  case refine_15 =>
    rw [stays same]
    exact (s.truDue due).computed_links
  case refine_16 =>
    have idle := State.computed_idle (s := s.truDue due) capture window
    refine ⟨?_, fun i small other => ?_⟩
    · rw [stays same]
      exact idle
    · rw [stays same]
      exact State.due_notice_idle due capture window other

/-! ### The watches (R32 to R34) -/

/-- What a computation's torque keeps of the torque unit. -/
theorem State.torque_frame (s : State) :
    let u := s.readDemand.computeTorque
    u.tru = { s.tru with
      phase := u.tru.phase, unchanged := u.tru.unchanged, lastSeq := u.tru.lastSeq, tdem := u.tru.tdem
      staleEntries := u.tru.staleEntries, tcmd := u.tru.tcmd, iref := u.tru.iref, lim := u.tru.lim, lneg := u.tru.lneg } := by
  dsimp only
  rw [State.torque_eq, State.readDemand_eq, TorqueUnit.demand_eq]

theorem State.excessCondition_iff (s : State) :
    s.excessCondition = true ↔
      if 0 ≤ s.measuredTotal then s.tru.lim.total + s.tru.margin < s.measuredTotal
      else s.tru.lneg.total + s.tru.margin < -s.measuredTotal := by
  unfold State.excessCondition
  dsimp only
  split <;> exact decide_eq_true_iff

theorem State.imbalanceCondition_iff (s : State) :
    s.imbalanceCondition = true ↔
      s.rc.isolated.a = false ∧ s.rc.isolated.b = false ∧ (s.tru.imbThreshold : Int) < |s.imbalance| := by
  unfold State.imbalanceCondition
  rw [Int.abs_eq_natAbs, Int.ofNat_lt]
  simp [and_assoc]

/-- A watch finds its cause in the live drive when its condition holds and its count reaches its persistence (R32, R33). -/
theorem State.found_iff {s : State} (live : s.rc.drive.live = true) :
    let u := s.readDemand.computeTorque
    (s.counted.excessFound = true ↔ u.excessCondition = true ∧ u.tru.pte ≤ u.tru.excessCount + 1) ∧
      (s.counted.imbalanceFound = true ↔ u.imbalanceCondition = true ∧ u.tru.pim ≤ u.tru.imbCount + 1) := by
  intro u
  have frame := s.counted_eq
  rw [if_pos live, if_pos live, State.evalStopHold_eq] at frame
  have drive : s.counted.rc.drive.live = true := by rwa [State.counted_drive]
  have pte : s.counted.tru.pte = u.tru.pte := congrArg (·.tru.pte) frame
  have pim : s.counted.tru.pim = u.tru.pim := congrArg (·.tru.pim) frame
  have excess : s.counted.excessCondition = u.excessCondition := (congrArg State.excessCondition frame).trans rfl
  have uneven : s.counted.imbalanceCondition = u.imbalanceCondition := (congrArg State.imbalanceCondition frame).trans rfl
  have excessCount : s.counted.tru.excessCount = if u.excessCondition = true then u.tru.excessCount + 1 else 0 :=
    congrArg (·.tru.excessCount) frame
  have imbCount : s.counted.tru.imbCount = if u.imbalanceCondition = true then u.tru.imbCount + 1 else 0 :=
    congrArg (·.tru.imbCount) frame
  unfold State.excessFound State.imbalanceFound
  rw [drive, pte, pim, excess, uneven, excessCount, imbCount]
  constructor
  · by_cases h : u.excessCondition = true <;> simp [h]
  · by_cases h : u.imbalanceCondition = true <;> simp [h]

theorem ReportedIf.of_iff {p : Prop} {b : Bool} (h : b = true ↔ p) (s : State) (c : Cause) : ReportedIf p c s (s.reportIf b c) := by
  classical
  rw [show b = decide p from Bool.eq_iff_iff.2 (h.trans decide_eq_true_iff.symm)]
  exact s.reportIf_spec p c

/-- Two causes reported each under its condition are reported in their order. -/
theorem CausesReported.pair {p q : Prop} [Decidable p] [Decidable q] {c d : Cause} {s u t : State} (first : ReportedIf p c s u)
    (second : ReportedIf q d u t) : CausesReported ((if p then [c] else []) ++ if q then [d] else []) s t := by
  have last : CausesReported (if q then [d] else []) u t := by
    by_cases hq : q
    · rw [if_pos hq]
      exact ⟨t, second.reported hq, rfl⟩
    · rw [if_neg hq]
      exact second.unreported hq
  by_cases hp : p
  · rw [if_pos hp]
    exact ⟨u, first.reported hp, last⟩
  · rw [if_neg hp, List.nil_append, ← first.unreported hp]
    exact last

/-- Settles O58. -/
theorem watchesCountAndTrip : Obligations.WatchesCountAndTrip := by
  intro s due timer live now u m excess gap uneven tooMuch apart
  have link : u.link = s.link := by simp [u]
  have rc : u.rc = s.rc := by simp [u]
  have frame : u.tru = _ := s.torque_frame
  have margin : u.tru.margin = s.tru.margin := (congrArg TorqueUnit.margin frame).trans rfl
  have threshold : u.tru.imbThreshold = s.tru.imbThreshold := (congrArg TorqueUnit.imbThreshold frame).trans rfl
  have excessive : u.excessCondition = true ↔ excess := by
    rw [State.excessCondition_iff]
    unfold State.measuredTotal
    rw [link, margin]
    rfl
  have imbalanced : u.imbalanceCondition = true ↔ uneven := by
    rw [State.imbalanceCondition_iff]
    unfold State.imbalance
    rw [link, rc, threshold]
  have pte : u.tru.pte = s.tru.pte := (congrArg TorqueUnit.pte frame).trans rfl
  have pim : u.tru.pim = s.tru.pim := (congrArg TorqueUnit.pim frame).trans rfl
  obtain ⟨excessCount, imbCount⟩ : u.tru.excessCount = s.tru.excessCount ∧ u.tru.imbCount = s.tru.imbCount := s.computeTorque_counts
  obtain ⟨found, parted⟩ := State.found_iff (s := s.truDue due) live
  rw [State.torque_truDue] at found parted
  have tooMuch_iff : (s.truDue due).counted.excessFound = true ↔ tooMuch := by
    refine found.trans (and_congr excessive ?_)
    rw [← pte, ← excessCount]
    rfl
  have apart_iff : (s.truDue due).counted.imbalanceFound = true ↔ apart := by
    refine parted.trans (and_congr imbalanced ?_)
    rw [← pim, ← imbCount]
    rfl
  have first := ReportedIf.of_iff tooMuch_iff (s.truDue due).computed .torqueExcess
  have second := ReportedIf.of_iff apart_iff ((s.truDue due).computed.reportIf (s.truDue due).counted.excessFound .torqueExcess)
    .pinionImbalance
  have ready : (s.truDue due).rc.drive ≠ .tripped := fun tripped => by
    rw [show s.rc.drive = .tripped from tripped] at live
    cases live
  have reports : s.truExpires = _ := (State.truExpires_eq timer).trans (s.truDue due).compute_eq
  rw [← reports] at second
  have computed : (s.truDue due).computed.tru = { u.tru with
      timer := some (now + s.tru.period)
      excessCount := if excess then s.tru.excessCount + 1 else 0
      imbCount := if uneven then s.tru.imbCount + 1 else 0
      snapNumber := (s.tru.snapNumber + 1) % 65536 } := by
    rw [State.due_tru, if_pos live, if_pos live, if_congr excessive rfl rfl, if_congr imbalanced rfl rfl]
  have torque := State.truExpires_tru timer
  rw [computed] at torque
  refine ⟨(s.truDue due).computed, s.truExpires, rfl, ?_, ?_, fun capture window => ⟨?_, fun i small other => ?_⟩, .pair first second,
    fun h => ?_, fun h => ?_, fun h h' => ?_, fun h h' => ?_⟩
  case refine_1 =>
    rw [computed, torque]
    exact congrArg (fun r : TorqueUnit => { r with
      timer := some (now + s.tru.period)
      excessCount := if excess then s.tru.excessCount + 1 else 0
      imbCount := if uneven then s.tru.imbCount + 1 else 0
      snapNumber := (s.tru.snapNumber + 1) % 65536 }) frame
  case refine_2 => exact s.due_rc due
  case refine_3 =>
    obtain ⟨ring, fill, -⟩ := State.truExpires_ring timer
    rw [State.truExpires_table timer, ring, fill]
    refine (State.computed_idle (s := s.truDue due) capture window).trans ?_
    rw [← State.computed_rc]
    rfl
  case refine_4 => exact State.due_notice_idle due capture window other
  case refine_5 =>
    obtain ⟨tripped, -, out⟩ := first.made h
    obtain ⟨still, -, same⟩ := second.kept tripped
    refine ⟨still, same.trans (out ?_)⟩
    rw [State.computed_drive]
    exact ready
  case refine_6 =>
    obtain ⟨tripped, latched, -⟩ := second.made h
    exact ⟨tripped, latched⟩
  case refine_7 =>
    obtain ⟨-, -, out⟩ := second.made h
    refine out ?_
    rw [first.unreported h', State.computed_drive]
    exact ready
  case refine_8 =>
    have same : s.truExpires = (s.truDue due).computed := (second.unreported h').trans (first.unreported h)
    rw [same, State.computed_drive, computed]
    exact ⟨rfl, rfl, rfl⟩

end Sys2Proof.Machine

/-! The cause window: the append of a snapshot to the record (R151), the count and the close of the window (R133, R134), and the
completion of the record (R152) (O59). -/

namespace Sys2Proof.Machine

/-! ### The words of the cause list (11.5) -/

theorem flatMap_pair_length {α : Type} (f g : α → Word) (l : List α) : (l.flatMap fun c => [f c, g c]).length = 2 * l.length := by
  induction l with
  | nil => rfl
  | cons c l ih =>
    rw [List.flatMap_cons, List.length_append, ih, List.length_cons]
    simp only [List.length_cons, List.length_nil]
    omega

theorem flatMap_pair_getElem? {α : Type} (f g : α → Word) (l : List α) (k : Nat) :
    (l.flatMap fun c => [f c, g c])[k]? = (l[k / 2]?).map fun c => if k % 2 = 0 then f c else g c := by
  induction l generalizing k with
  | nil => simp
  | cons c l ih =>
    rw [List.flatMap_cons]
    match k with
    | 0 => rfl
    | 1 => rfl
    | k + 2 =>
      rw [List.getElem?_append_right (by simp), show (k + 2) / 2 = k / 2 + 1 by omega, List.getElem?_cons_succ,
        show (k + 2) % 2 = k % 2 by omega]
      exact ih k

theorem causeListWords_getElem? {l : List Cause} (small : l.length ≤ 8) {k : Nat} (hk : k < 16) :
    (causeListWords l)[k]? = some (((l[k / 2]?).map fun c => if k % 2 = 0 then wordN c.code else wordN c.detail).getD 0) := by
  have length := flatMap_pair_length (fun c : Cause => wordN c.code) (fun c => wordN c.detail) l
  have used := flatMap_pair_getElem? (fun c : Cause => wordN c.code) (fun c => wordN c.detail) l k
  unfold causeListWords zeroWords
  dsimp only
  rw [List.getElem?_take_of_lt hk]
  by_cases within : k / 2 < l.length
  · rw [List.getElem?_append_left (by omega), used, List.getElem?_eq_getElem within]
    rfl
  · rw [List.getElem?_append_right (by omega), List.getElem?_replicate, if_pos (by omega), List.getElem?_eq_none (by omega)]
    rfl

/-! ### The words that the parts of a hand-off write -/

/-- An append writes the snapshot into its place, and the post count unless a copy is in flight (R151). -/
theorem State.appendSnapshot_read {s : State} {n : Fin 4} (capture : s.rcu.capture = some n) (x : Snapshot) {a : Nat}
    (inside : a < Config.xmWords) :
    (s.appendSnapshot x).xm.read a =
      if placeOffset n (s.rcu.preCount + s.rcu.postCount) ≤ a ∧ a < placeOffset n (s.rcu.preCount + s.rcu.postCount) + 16 then
        snapshotWord x (a - placeOffset n (s.rcu.preCount + s.rcu.postCount))
      else if s.rcu.copy = none ∧ a = slotStateOffset n + 14 then wordN (s.rcu.postCount + 1)
      else s.xm.read a := by
  set place := placeOffset n (s.rcu.preCount + s.rcu.postCount) with hplace
  have behind : slotStateOffset n + 128 ≤ place := by
    rw [hplace]
    unfold placeOffset
    omega
  have block : (s.xm.writeBlock place x.words).read a =
      if place ≤ a ∧ a < place + 16 then snapshotWord x (a - place) else s.xm.read a := by
    rw [Memory.read_writeBlock _ _ _ _ inside]
    have length := x.words_length
    by_cases within : place ≤ a ∧ a < place + 16
    · rw [dif_pos (by omega), if_pos within]
      have word := x.words_getElem (k := a - place) (by omega)
      rw [List.getElem?_eq_getElem (by omega)] at word
      exact Option.some.inj word
    · rw [dif_neg (by omega), if_neg within]
  unfold State.appendSnapshot
  rw [capture]
  dsimp only
  rw [← hplace]
  cases copy : s.rcu.copy with
  | some j =>
    rw [if_pos (by simp)]
    simpa using block
  | none =>
    rw [if_neg (by simp)]
    show ((s.xm.writeBlock place x.words).write (slotStateOffset n + 14) (wordN (s.rcu.postCount + 1))).read a = _
    rw [Memory.read_write _ _ _ _ inside, block]
    by_cases count : a = slotStateOffset n + 14
    · rw [if_pos count, if_neg (by omega), if_pos ⟨rfl, count⟩]
    · rw [if_neg count, if_neg (c := _ ∧ _) fun h => count h.2]

/-- A close rewrites the cause count and the marks of the open entry (R134). -/
theorem State.closeEntry_read {s : State} {i : Fin 32} (opened : s.tu.openEntry = some i) {a : Nat} (inside : a < Config.xmWords) :
    s.closeEntry.xm.read a =
      if a = chronicleOffset i + 4 then wordN s.tu.causeList.length
      else if a = chronicleOffset i + 7 then s.xm.read a &&& 0x7FFF#16
      else s.xm.read a := by
  obtain ⟨-, high⟩ := chronicleOffset_bounds i
  have marks : chronicleOffset i + 7 < Config.xmWords := by unfold Config.xmWords; omega
  unfold State.closeEntry
  rw [opened]
  dsimp only
  rw [Memory.read_write _ _ _ _ inside, Memory.read_write _ _ _ _ inside, Memory.read_write _ _ _ _ marks]
  by_cases last : a = chronicleOffset i + 7
  · subst last
    rw [if_pos rfl, if_neg (by omega), if_neg (by omega), if_pos rfl]
  · rw [if_neg last, if_neg last]

/-- A completed record holds the cause list, its count and READY (R152). -/
theorem State.completeRecord_read {s : State} {n : Fin 4} (capture : s.rcu.capture = some n) (copy : s.rcu.copy = none)
    (small : s.tu.causeList.length ≤ 8) {a : Nat} (inside : a < Config.xmWords) :
    s.completeRecord.xm.read a =
      if a = slotStateOffset n then 2
      else if a = slotStateOffset n + 15 then wordN s.tu.causeList.length
      else if slotStateOffset n + 16 ≤ a ∧ a < slotStateOffset n + 32 then
        ((s.tu.causeList[(a - slotStateOffset n - 16) / 2]?).map fun c =>
          if (a - slotStateOffset n) % 2 = 0 then wordN c.code else wordN c.detail).getD 0
      else s.xm.read a := by
  have copied : s.completeCopy = s := by
    unfold State.completeCopy
    rw [capture, copy]
  have length := causeListWords_length s.tu.causeList
  unfold State.completeRecord
  rw [capture]
  dsimp only
  rw [copied, State.notify_xm, Memory.read_write _ _ _ _ inside, Memory.read_write _ _ _ _ inside, Memory.read_writeBlock _ _ _ _ inside]
  by_cases list : slotStateOffset n + 16 ≤ a ∧ a < slotStateOffset n + 32
  · have word := causeListWords_getElem? small (k := a - (slotStateOffset n + 16)) (by omega)
    rw [List.getElem?_eq_getElem (by omega), Option.some.injEq] at word
    rw [if_neg (by omega), if_neg (by omega), dif_pos (by omega), if_neg (by omega), if_neg (by omega), if_pos list, word,
      Nat.sub_sub, show (a - (slotStateOffset n + 16)) % 2 = (a - slotStateOffset n) % 2 by omega]
  · rw [dif_neg (by omega), if_neg list]

/-! ### The count and the close of the window (R133, R134) -/

/-- A hand-off before the window counts it: the snapshot in the ring and in the record (R144, R151). -/
def State.appended (s : State) : State :=
  (State.placeSnapshot { s with tru := { s.tru with snapNumber := (s.tru.snapNumber + 1) % 65536 } } s.nextSnapshot).appendSnapshot
    s.nextSnapshot

theorem State.handOff_eq (s : State) : s.handOff = s.appended.countWindow := rfl

theorem State.appended_keeps (s : State) : s.appended.tu = s.tu ∧ s.appended.rn = s.rn := by simp [State.appended]

theorem State.appended_rcu (s : State) :
    s.appended.rcu.capture = s.rcu.capture ∧ s.appended.rcu.copy = s.rcu.copy ∧
      s.appended.rcu.postCount = if s.rcu.capture.isSome then s.rcu.postCount + 1 else s.rcu.postCount := by
  unfold State.appended
  rw [State.appendSnapshot_rcu]
  exact ⟨rfl, rfl, rfl⟩

theorem State.appended_read {s : State} {n : Fin 4} (capture : s.rcu.capture = some n) {a : Nat} (inside : a < Config.xmWords) :
    s.appended.xm.read a =
      if slotStateOffset n + 128 + 16 * (s.rcu.preCount + s.rcu.postCount) ≤ a ∧
          a < slotStateOffset n + 128 + 16 * (s.rcu.preCount + s.rcu.postCount) + 16 then
        snapshotWord s.nextSnapshot (a - (slotStateOffset n + 128 + 16 * (s.rcu.preCount + s.rcu.postCount)))
      else if s.rcu.copy = none ∧ a = slotStateOffset n + 14 then wordN (s.rcu.postCount + 1)
      else s.xm.read a :=
  State.appendSnapshot_read
    (s := State.placeSnapshot { s with tru := { s.tru with snapNumber := (s.tru.snapNumber + 1) % 65536 } } s.nextSnapshot) capture _ inside

theorem State.appended_xm_of_none {s : State} (capture : s.rcu.capture = none) : s.appended.xm = s.xm :=
  (congrArg State.xm (State.appendSnapshot_idle
    (s := State.placeSnapshot { s with tru := { s.tru with snapNumber := (s.tru.snapNumber + 1) % 65536 } } s.nextSnapshot) capture _)).trans rfl

theorem State.countWindow_counts {s : State} {k : Nat} (window : s.tu.window = some k) (below : k < 23) :
    s.countWindow = { s with tu := { s.tu with window := some (k + 1) } } := by
  unfold State.countWindow Config.windowPeriods
  rw [window]
  exact if_neg (by omega)

theorem State.countWindow_closes {s : State} (window : s.tu.window = some 23) : s.countWindow = s.closeWindow := by
  unfold State.countWindow
  rw [window]
  rfl

/-- The close of a window completes the record of its capture, and rewrites its entry (R134, R152). -/
theorem State.closeWindow_read {s : State} {n : Fin 4} {i : Fin 32} (capture : s.rcu.capture = some n) (copy : s.rcu.copy = none)
    (opened : s.tu.openEntry = some i) (small : s.tu.causeList.length ≤ 8) {a : Nat} (inside : a < Config.xmWords) :
    s.closeWindow.xm.read a =
      if a = slotStateOffset n then 2
      else if a = slotStateOffset n + 15 then wordN s.tu.causeList.length
      else if slotStateOffset n + 16 ≤ a ∧ a < slotStateOffset n + 32 then
        ((s.tu.causeList[(a - slotStateOffset n - 16) / 2]?).map fun c =>
          if (a - slotStateOffset n) % 2 = 0 then wordN c.code else wordN c.detail).getD 0
      else if a = chronicleOffset i + 4 then wordN s.tu.causeList.length
      else if a = chronicleOffset i + 7 then s.xm.read a &&& 0x7FFF#16
      else s.xm.read a := by
  have entry := State.closeEntry_read (s := { s with tu := { s.tu with window := none } }) opened inside
  have tu : (State.closeEntry { s with tu := { s.tu with window := none } }).tu = { s.tu with window := none } := by simp
  have record := State.completeRecord_read (s := State.closeEntry { s with tu := { s.tu with window := none } })
    (by simpa using capture) (by simpa using copy) (by rw [tu]; exact small) inside
  rw [entry, tu] at record
  exact record

/-- The close of a window without a capture rewrites its entry alone (R134, R148). -/
theorem State.closeWindow_read_of_none {s : State} {i : Fin 32} (capture : s.rcu.capture = none) (opened : s.tu.openEntry = some i) {a : Nat}
    (inside : a < Config.xmWords) :
    s.closeWindow.xm.read a =
      if a = chronicleOffset i + 4 then wordN s.tu.causeList.length
      else if a = chronicleOffset i + 7 then s.xm.read a &&& 0x7FFF#16
      else s.xm.read a := by
  have idle : ∀ u : State, u.rcu.capture = none → u.completeRecord = u := fun u free => by
    unfold State.completeRecord
    rw [free]
  unfold State.closeWindow
  dsimp only
  rw [idle _ (by simpa using capture)]
  exact State.closeEntry_read (s := { s with tu := { s.tu with window := none } }) opened inside

theorem State.closeWindow_rn (s : State) :
    s.closeWindow.rn = if s.rcu.capture = none then s.rn else { s.rn with notice := s.rn.notice ||| Notice.record.mark } := by
  simp only [State.closeWindow, State.completeRecord_rn, State.closeEntry_keeps]

/-! ### O59 -/

/-- In TRIPPED an expiry reports nothing. -/
theorem State.truExpires_tripped {s : State} {due : Nat} (timer : s.tru.timer = some due) (tripped : s.rc.drive = .tripped) :
    s.truExpires = (s.truDue due).computed := by
  refine (State.truExpires_cases timer).resolve_right fun ⟨live, _⟩ => ?_
  rw [tripped] at live
  cases live

/-- Outside the torque unit, the ring and the fold, an expiry in TRIPPED leaves what its hand-off leaves. -/
theorem State.truExpires_window {s : State} {due : Nat} (timer : s.tru.timer = some due) (tripped : s.rc.drive = .tripped) :
    ∃ c : State, c.rcu = s.rcu ∧ c.tu = s.tu ∧ c.xm = s.xm ∧ (∀ i, i ≠ 7 → c.rn.notice.getLsbD i = s.rn.notice.getLsbD i) ∧
      s.truExpires.rcu = c.appended.countWindow.rcu ∧ s.truExpires.tu = c.appended.countWindow.tu ∧
      s.truExpires.xm = c.appended.countWindow.xm ∧ s.truExpires.rn = c.appended.countWindow.rn ∧
      ringAt s.truExpires.rcu.ring ((s.truExpires.tru.snapNumber + 65535) % 65536 % 256) = some c.nextSnapshot := by
  rw [State.truExpires_tripped timer tripped]
  refine ⟨(s.truDue due).counted, by simp [State.counted, State.truDue], by simp [State.counted, State.truDue],
    by simp [State.counted, State.truDue], fun i other => ?_, ?_, ?_, ?_, ?_, ?_⟩
  case refine_1 =>
    have rn : (s.truDue due).counted.rn = (s.truDue due).readDemand.rn := by simp [State.counted]
    rw [rn, State.readDemand_notice]
    split
    · simp [State.truDue, Notice.mark_getLsbD, Notice.bitNumber, other]
    · rfl
  case refine_6 =>
    obtain ⟨placed, -⟩ := (s.truDue due).counted.handOff_rcu
    rw [State.computed_rcu, placed, ringAt_cons_filter]
    refine if_pos ?_
    have number : (s.truDue due).counted.nextSnapshot.number = ((s.truDue due).counted.tru.snapNumber + 1) % 65536 := rfl
    rw [number, State.counted_snapNumber, State.computed_tru]
    rfl
  all_goals
    rw [← State.handOff_eq]
    simp [State.computed]

/-- Settles O59. -/
theorem windowCountsAndCloses : Obligations.WindowCountsAndCloses := by
  intro s due k i timer tripped window le opened small entry
  obtain ⟨c, rcu, tu, xm, notice, rcuAfter, tuAfter, xmAfter, rnAfter, ring⟩ := State.truExpires_window timer tripped
  obtain ⟨tuKept, rnKept⟩ := c.appended_keeps
  obtain ⟨captureKept, copyKept, post⟩ := c.appended_rcu
  rw [tu] at tuKept
  rw [rcu] at captureKept copyKept post
  have windowed : c.appended.tu.window = some k := by rw [tuKept, window]
  have counts : k < 23 → c.appended.countWindow = { c.appended with tu := { s.tu with window := some (k + 1) } } := fun below => by
    rw [State.countWindow_counts windowed below, tuKept]
  have closes : k = 23 → c.appended.countWindow = c.appended.closeWindow := fun last => State.countWindow_closes (last ▸ windowed)
  have postAfter : s.truExpires.rcu.postCount = c.appended.rcu.postCount := by
    rw [rcuAfter, (State.countWindow_rcu _).1]
  refine ⟨fun n capture fits => ?_, fun capture => ?_⟩
  · intro base place
    have appended : ∀ a < Config.xmWords, c.appended.xm.read a = _ := fun a inside => State.appended_read (rcu ▸ capture) inside
    rw [rcu, xm] at appended
    refine ⟨_, c.nextSnapshot, rfl, ring, ?_, fun below => ?_, fun last copy => ?_⟩
    · rw [postAfter, post, capture]
      rfl
    · rw [rcuAfter, tuAfter, xmAfter, counts below]
      exact ⟨rfl, captureKept.trans capture, copyKept, appended⟩
    · rw [rcuAfter, tuAfter, xmAfter, rnAfter, closes last, State.closeWindow_rn, State.closeWindow_rcu, State.closeWindow_tu, tuKept]
      refine ⟨rfl, rfl, ?_, fun a inside => ?_⟩
      · rw [if_neg (by rw [captureKept, capture]; nofun)]
        simp [Notice.mark_getLsbD, Notice.bitNumber]
      · rw [State.closeWindow_read (captureKept.trans capture) (copyKept.trans copy) (by rw [tuKept, opened]) (by rwa [tuKept]) inside,
          appended a inside, tuKept]
        obtain ⟨-, high⟩ := chronicleOffset_bounds i
        have low : 0x1000 ≤ base := by
          show 0x1000 ≤ slotStateOffset n
          unfold slotStateOffset
          omega
        by_cases state : a = base
        · rw [if_pos state, if_neg (by omega), if_pos state]
        by_cases number : a = base + 15
        · rw [if_neg state, if_pos number, if_neg (by omega), if_neg state, if_neg (by omega), if_pos number]
        by_cases list : base + 16 ≤ a ∧ a < base + 32
        · rw [if_neg state, if_neg number, if_pos list, if_neg (by omega), if_neg state, if_neg (by omega), if_neg number, if_pos list]
        rw [if_neg state, if_neg number, if_neg list]
        by_cases snapshot : place ≤ a ∧ a < place + 16
        · rw [if_neg (by omega), if_neg (by omega), if_pos snapshot, if_pos snapshot]
        by_cases header : a = base + 14
        · rw [if_neg (by omega), if_neg (by omega), if_neg snapshot, if_pos ⟨copy, header⟩, if_neg snapshot, if_neg state, if_pos header]
        · rw [if_neg snapshot, if_neg (c := s.rcu.copy = none ∧ a = base + 14) fun h => header h.2, if_neg snapshot, if_neg state, if_neg header, if_neg number, if_neg list]
  · have idle : c.appended.countWindow.rcu.capture = none ∧ c.appended.countWindow.rn = c.rn := by
      rcases le.lt_or_eq with below | last
      · rw [counts below]
        exact ⟨captureKept.trans capture, rnKept⟩
      · rw [closes last, State.closeWindow_rcu, State.closeWindow_rn, if_pos (captureKept.trans capture)]
        exact ⟨rfl, rnKept⟩
    refine ⟨_, rfl, ?_, ?_, ?_, fun below => ?_, fun last => ?_⟩
    · rw [rcuAfter, idle.1]
    · rw [postAfter, post, capture]
      rfl
    · rw [rnAfter, idle.2, notice 2 (by decide)]
    · rw [tuAfter, xmAfter, counts below]
      exact ⟨rfl, (State.appended_xm_of_none (rcu ▸ capture)).trans xm⟩
    · rw [tuAfter, xmAfter, closes last, State.closeWindow_tu, tuKept]
      refine ⟨rfl, fun a inside => ?_⟩
      rw [State.closeWindow_read_of_none (captureKept.trans capture) (by rw [tuKept, opened]) inside, tuKept,
        State.appended_xm_of_none (rcu ▸ capture), xm]

end Sys2Proof.Machine
